-- ==== Sys2Proof/Word.lean ====
section
/-! DEFINITION. The word types of the block (00_scope R11: 32-bit registers and addresses, an 8-bit data lane). -/

namespace Sys2Proof

/-- A byte of the data lane, of system memory, or of a status field (R11, R82). -/
abbrev Byte := BitVec 8

/-- A 32-bit register or queue word, or a system-memory address while the block computes it (R11, R44). -/
abbrev Word := BitVec 32

/-- A 48-bit access word (R111). -/
abbrev AccessWord := BitVec 48

end Sys2Proof
end

