-- ==== Sys2Proof/Config.lean ====
section
/-! DEFINITION. What is fixed for one machine (00_scope R10: the parameters) and what the spec leaves open
(93_implementation_defined U1, U14, U15, U18: the free values, as constants without a body). -/

namespace Sys2Proof

/-- The four protocol engines of R40, in the order of their indices 0 to 3. -/
inductive Engine where
  | cw    -- 0, CommandWrite
  | dwb   -- 1, DataWriteByte
  | dwt   -- 2, DataWriteTriple
  | cdr   -- 3, CommandDataRead
  deriving DecidableEq, Repr, Inhabited

/-- Whose step is tried next (R4, R5, R409).  The DMA has two steps that may both be enabled, its unit step (R236) and
its abort acknowledgement (R241); which comes first is left to the interleaving (U14), so each is a choice of its own.
The pixel encoder and the device take no step (R4). -/
inductive Turn where
  | host
  | engine (e : Engine)
  | dmaUnit
  | dmaAck
  | window
  deriving DecidableEq, Repr, Inhabited

/-- A stretch `lo ≤ a < hi` of byte addresses. -/
structure MemRange where
  lo : Nat
  hi : Nat
  deriving DecidableEq, Repr

/-- The parameters of R10 and the two host parameters of R362.  No source fixes them; every claim about every state is a
claim about every value of them, because the state carries them and no step writes them.  `MemValid` is given by its
stretches: any set of 32-bit addresses is a finite union of them. -/
structure Params where
  /-- `BASE`, the byte address of register offset 0. -/
  base : Word
  /-- `NPINS`, the number of pin indices. -/
  nPins : Nat
  /-- `QDEPTH`, the capacity of every queue. -/
  qDepth : Nat
  /-- `MAXFILL` of the txLimit formula. -/
  maxFill : Nat
  /-- `BPP` of the txLimit formula. -/
  bytesPerPixel : Nat
  /-- `MAXREAD` of the rxLimit formula. -/
  maxRead : Nat
  /-- `MemValid`, as the stretches of addresses that hold memory. -/
  memRanges : List MemRange
  /-- `tSettle`, a duration that no rule depends on (R454). -/
  tSettle : Nat
  /-- `BACKOFF0` in microseconds (R362). -/
  backoff0 : Nat
  /-- `BACKOFFSTEP` in microseconds (R362). -/
  backoffStep : Nat
  deriving DecidableEq, Repr

/-- The constraints of R10 on the parameters, and R80's that no memory lies in BASE .. BASE + 0x113, addresses that go on at
0 past 2^32 - 1 (R13). -/
def Params.ok (p : Params) : Bool :=
  decide (p.base.toNat % 4 = 0) && decide (13 ≤ p.nPins) && decide (p.nPins ≤ 255)
    && decide (1 ≤ p.qDepth) && decide (p.qDepth ≤ 255)
    && p.memRanges.all fun r =>
      decide (r.hi ≤ r.lo) ||
        ((decide (r.hi ≤ p.base.toNat) || decide (min (p.base.toNat + 0x114) (2 ^ 32) ≤ r.lo)) &&
          decide (p.base.toNat + 0x114 - 2 ^ 32 ≤ r.lo))

/-- DESIGN CHOICE (log 4): the parameters of `State.reset`, those of 95_test_vectors §0 ("test choices, not values from
the source"); BASE, tSettle and the backoffs, which that section does not name, are 0x40000000 and 0. -/
def Params.testChoices : Params where
  base := 0x40000000#32
  nPins := 30
  qDepth := 4
  maxFill := 384000
  bytesPerPixel := 3
  maxRead := 2400
  memRanges := [⟨0x20000000, 0x20040000⟩]
  tSettle := 0
  backoff0 := 0
  backoffStep := 0

/-- FREE VALUE (U18, R441; log 5): what a byte of system memory holds that nothing has written since power-on. -/
opaque Config.powerOnByte : Nat → Byte

/-- FREE VALUE (U1, R205; log 6): `draw8()`, the byte the device answers to the n-th read strobe. -/
opaque Config.draw8 : Nat → Byte

/-- FREE VALUE (U14, U15, R409; log 3): whose step is tried at the n-th step of a run. -/
opaque Config.schedule : Nat → Turn

end Sys2Proof
end

