-- ==== Sys2Proof/Syntax.lean ====
section
/-! DEFINITION. The instructions (one constructor per row of spec/opcode_table.json), the forms in which an agent fetches
one, and the host's operations. -/

namespace Sys2Proof

/-- The unit widths of a memory access: 8, 16 or 32 bits (R49 SIZE, R131 n). -/
inductive AccessSize where
  | b1 | b2 | b4
  deriving DecidableEq, Repr

/-- The five queue-unit formats an engine pulls from its input queue (R120 to R123). -/
inductive UnitKind where
  | cw | dwb | dwt | cdrCount | cdrCmd
  deriving DecidableEq, Repr

/-- The registers of R70. -/
inductive Reg where
  | cfgPins | cfgPins2 | cfgWclk | cfgRclk | cfgCtrl | cfgStatus | txLimit | rxLimit | pinctl
  | engEnable | engIdle | engClear | txLevel | rxLevel | txqCw | txqDwb | txqDwt | txqCdr | rxqCdr
  | dmaAddr | dmaCount | dmaCtrl | dmaAbort
  | encSrc | encDst | encCount | encPal | encPalLen | encFg | encBg | encDim | encCtrl | encStatus
  | winX | winY | winCtrl | winCmd | winStatus
  deriving DecidableEq, Repr

/-- Why an access word is no instruction (R112, R126, R406). -/
inductive DecodeError where
  | unmappedOffset | badAccess | writeReadOnly | readWriteOnly
  deriving DecidableEq, Repr

/-- The instructions: every form of R114, the queue units of R120 to R124, the host pseudo-operations of R131.  Operands
are the fields of the form's DATA that its rule uses; a constructor without operands takes none. -/
inductive Instr where
  -- 41_config
  | wCfgPins (dataBase pinDc pinWr pinRd : Byte)
  | rCfgPins
  | wCfgPins2 (pinRst pinBl : Byte)
  | rCfgPins2
  | wCfgWclk (hz : Word)
  | rCfgWclk
  | wCfgRclk (hz : Word)
  | rCfgRclk
  | wCfgCtrlInit
  | wCfgCtrlNop
  | rCfgStatus
  | rTxLimit
  | rRxLimit
  | wPinctl (rst bl : Bool)
  | rPinctl
  -- 42_engines
  | wEngEnable (en : BitVec 4)
  | rEngEnable
  | rEngIdle
  | wEngClear (sel : BitVec 4)
  | rTxLevel
  | rRxLevel
  | wTxqCw (w : Word)
  | wTxqDwb (w : Word)
  | wTxqDwt (w : Word)
  | wTxqCdr (w : Word)
  | rRxqCdr
  -- 43_dma
  | wDmaAddr (addr : Word)
  | rDmaAddr
  | wDmaCount (count : Word)
  | rDmaCount
  | wDmaCtrlSubmit (size : BitVec 2) (incr : Bool) (qsel : BitVec 3)
  | wDmaCtrlSet (size : BitVec 2) (incr : Bool) (qsel : BitVec 3)
  | rDmaCtrl
  | wDmaAbort (abort : Bool)
  | rDmaAbort
  -- 44_pixel_encoding
  | wEncSrc (addr : Word)
  | rEncSrc
  | wEncDst (addr : Word)
  | rEncDst
  | wEncCount (count : Word)
  | rEncCount
  | wEncPal (addr : Word)
  | rEncPal
  | wEncPalLen (len : BitVec 9)
  | rEncPalLen
  | wEncFg (r g b : Byte)
  | rEncFg
  | wEncBg (r g b : Byte)
  | rEncBg
  | wEncDim (width height : BitVec 16)
  | rEncDim
  | wEncCtrlSet (op bpp : BitVec 4) (mode : BitVec 2) (tdir : Bool)
  | wEncCtrlRgb565 (bpp : BitVec 4) (mode : BitVec 2) (tdir : Bool)
  | wEncCtrlIndexed (bpp : BitVec 4) (mode : BitVec 2) (tdir : Bool)
  | wEncCtrlGlyph (bpp : BitVec 4) (mode : BitVec 2) (tdir : Bool)
  | wEncCtrlBitrev (bpp : BitVec 4) (mode : BitVec 2) (tdir : Bool)
  | wEncCtrlTranspose (bpp : BitVec 4) (mode : BitVec 2) (tdir : Bool)
  | wEncCtrlReserved1 (bpp : BitVec 4) (mode : BitVec 2) (tdir : Bool)
  | wEncCtrlReserved2 (op bpp : BitVec 4) (mode : BitVec 2) (tdir : Bool)
  | wEncCtrlReserved3 (op bpp : BitVec 4) (mode : BitVec 2) (tdir : Bool)
  | rEncCtrl
  | rEncStatus
  -- 45_window
  | wWinX (x1 x2 : BitVec 16)
  | rWinX
  | wWinY (y1 y2 : BitVec 16)
  | rWinY
  | wWinCtrlStart (orient : Bool)
  | wWinCtrlSet (orient : Bool)
  | rWinCtrl
  | wWinCmd (col page memwr : Byte)
  | rWinCmd
  | rWinStatus
  -- 30_encoding §4: the units an engine pulls, and the byte the CDR captures
  | qunitCw (dc : Bool) (d : Byte)
  | qunitDwb (d : Byte)
  | qunitDwt (a b c : Byte)
  | qunitCdrCount (n : BitVec 16)
  | qunitCdrCmd (d : Byte)
  | qunitRx (d : Byte)
  -- 30_encoding §7
  | memw (a : Word) (n : AccessSize) (v : Word)
  | memr (a : Word) (n : AccessSize)
  | delay (t : Nat)
  deriving DecidableEq, Repr

/-- What an agent fetches before it is decoded: the host an access word (R111) or a pseudo-operation, which has no access
word (R131); an engine a word of its input queue, read in the format of its place (R125); the CDR's read step the byte on
the data lane (R124). -/
inductive Encoded where
  | access (w : AccessWord)
  | txUnit (k : UnitKind) (w : Word)
  | rxUnit (b : Byte)
  | memw (a : Word) (n : AccessSize) (v : Word)
  | memr (a : Word) (n : AccessSize)
  | delay (t : Nat)
  deriving DecidableEq, Repr

/-- One operation of a host program (R110, R128).  `bus` is a register access as the host's bus makes it, by byte address
and width, before it is spelled as an access word (R80, R84). -/
inductive HostOp where
  | access (w : AccessWord)
  | bus (write : Bool) (width : Nat) (addr data : Word)
  | memw (a : Word) (n : AccessSize) (v : Word)
  | memr (a : Word) (n : AccessSize)
  | delay (t : Nat)
  deriving DecidableEq, Repr

end Sys2Proof
end

