-- ==== Sys2Proof/WellFormed.lean ====
section
/-! DEFINITION. Which terms of `Instr` an encoding stands for.  Operand widths are in the types; what is left is the OP
field of the two reserved forms that share a constructor over several codes (R304). -/

namespace Sys2Proof

/-- R304, R114: RESERVED_2 is OP 6 or 7, RESERVED_3 is OP 8 to 15. -/
def WellFormed (i : Instr) : Bool :=
  match i with
  | .wEncCtrlReserved2 op _ _ _ => op == 6#4 || op == 7#4
  | .wEncCtrlReserved3 op _ _ _ => decide (8#4 ≤ op)
  | _ => true

end Sys2Proof
end

