-- ==== Sys2Proof/Decode.lean ====
section
/-! DEFINITION. Decoding of access words and queue units, total and rejecting by name (R112, R126), and after it the
encoder, both written from the encoding tables of 30_encoding. -/

namespace Sys2Proof

/-! ## Bit fields (R12, R113: unsigned slices, nothing extended, scaled or shifted) -/

/-- `v[lo+n-1 : lo]`. -/
def slice {w : Nat} (v : BitVec w) (lo n : Nat) : BitVec n := v.extractLsb' lo n

/-- `v[i]`. -/
def bitAt {w : Nat} (v : BitVec w) (i : Nat) : Bool := v.getLsbD i

/-! ## The register map (R70) -/

/-- Byte offset of a register from BASE (R70). -/
def Reg.offset (r : Reg) : BitVec 12 :=
  match r with
  | .cfgPins => 0x000#12
  | .cfgPins2 => 0x004#12
  | .cfgWclk => 0x008#12
  | .cfgRclk => 0x00C#12
  | .cfgCtrl => 0x010#12
  | .cfgStatus => 0x014#12
  | .txLimit => 0x018#12
  | .rxLimit => 0x01C#12
  | .pinctl => 0x020#12
  | .engEnable => 0x040#12
  | .engIdle => 0x044#12
  | .engClear => 0x048#12
  | .txLevel => 0x04C#12
  | .rxLevel => 0x050#12
  | .txqCw => 0x060#12
  | .txqDwb => 0x064#12
  | .txqDwt => 0x068#12
  | .txqCdr => 0x06C#12
  | .rxqCdr => 0x070#12
  | .dmaAddr => 0x080#12
  | .dmaCount => 0x084#12
  | .dmaCtrl => 0x088#12
  | .dmaAbort => 0x08C#12
  | .encSrc => 0x0C0#12
  | .encDst => 0x0C4#12
  | .encCount => 0x0C8#12
  | .encPal => 0x0CC#12
  | .encPalLen => 0x0D0#12
  | .encFg => 0x0D4#12
  | .encBg => 0x0D8#12
  | .encDim => 0x0DC#12
  | .encCtrl => 0x0E0#12
  | .encStatus => 0x0E4#12
  | .winX => 0x100#12
  | .winY => 0x104#12
  | .winCtrl => 0x108#12
  | .winCmd => 0x10C#12
  | .winStatus => 0x110#12

/-- The registers of R70, in the order of their offsets. -/
def Reg.all : List Reg :=
  [.cfgPins, .cfgPins2, .cfgWclk, .cfgRclk, .cfgCtrl, .cfgStatus, .txLimit, .rxLimit, .pinctl,
    .engEnable, .engIdle, .engClear, .txLevel, .rxLevel, .txqCw, .txqDwb, .txqDwt, .txqCdr, .rxqCdr,
    .dmaAddr, .dmaCount, .dmaCtrl, .dmaAbort,
    .encSrc, .encDst, .encCount, .encPal, .encPalLen, .encFg, .encBg, .encDim, .encCtrl, .encStatus,
    .winX, .winY, .winCtrl, .winCmd, .winStatus]

/-- The register at an offset; `none` where R70 lists none. -/
def Reg.ofOffset (off : BitVec 12) : Option Reg := Reg.all.find? fun r => r.offset == off

/-! ## Decoding -/

/-- A write of DATA to a register (R114; R112 for the forms that DATA bits select).  A read-only register has no write
form (R126). -/
def decodeWrite (r : Reg) (data : Word) : Except DecodeError Instr :=
  match r with
  | .cfgPins => .ok (.wCfgPins (slice data 0 8) (slice data 8 8) (slice data 16 8) (slice data 24 8))
  | .cfgPins2 => .ok (.wCfgPins2 (slice data 0 8) (slice data 8 8))
  | .cfgWclk => .ok (.wCfgWclk data)
  | .cfgRclk => .ok (.wCfgRclk data)
  | .cfgCtrl => if bitAt data 0 then .ok .wCfgCtrlInit else .ok .wCfgCtrlNop
  | .cfgStatus => .error .writeReadOnly
  | .txLimit => .error .writeReadOnly
  | .rxLimit => .error .writeReadOnly
  | .pinctl => .ok (.wPinctl (bitAt data 0) (bitAt data 1))
  | .engEnable => .ok (.wEngEnable (slice data 0 4))
  | .engIdle => .error .writeReadOnly
  | .engClear => .ok (.wEngClear (slice data 0 4))
  | .txLevel => .error .writeReadOnly
  | .rxLevel => .error .writeReadOnly
  | .txqCw => .ok (.wTxqCw data)
  | .txqDwb => .ok (.wTxqDwb data)
  | .txqDwt => .ok (.wTxqDwt data)
  | .txqCdr => .ok (.wTxqCdr data)
  | .rxqCdr => .error .writeReadOnly
  | .dmaAddr => .ok (.wDmaAddr data)
  | .dmaCount => .ok (.wDmaCount data)
  | .dmaCtrl =>
    if bitAt data 0 then .ok (.wDmaCtrlSubmit (slice data 1 2) (bitAt data 3) (slice data 4 3))
    else .ok (.wDmaCtrlSet (slice data 1 2) (bitAt data 3) (slice data 4 3))
  | .dmaAbort => .ok (.wDmaAbort (bitAt data 0))
  | .encSrc => .ok (.wEncSrc data)
  | .encDst => .ok (.wEncDst data)
  | .encCount => .ok (.wEncCount data)
  | .encPal => .ok (.wEncPal data)
  | .encPalLen => .ok (.wEncPalLen (slice data 0 9))
  | .encFg => .ok (.wEncFg (slice data 16 8) (slice data 8 8) (slice data 0 8))
  | .encBg => .ok (.wEncBg (slice data 16 8) (slice data 8 8) (slice data 0 8))
  | .encDim => .ok (.wEncDim (slice data 0 16) (slice data 16 16))
  | .encCtrl =>
    let op := slice data 0 4
    let bpp := slice data 4 4
    let mode := slice data 8 2
    let tdir := bitAt data 10
    if bitAt data 31 then
      if op = 0#4 then .ok (.wEncCtrlRgb565 bpp mode tdir)
      else if op = 1#4 then .ok (.wEncCtrlIndexed bpp mode tdir)
      else if op = 2#4 then .ok (.wEncCtrlGlyph bpp mode tdir)
      else if op = 3#4 then .ok (.wEncCtrlBitrev bpp mode tdir)
      else if op = 4#4 then .ok (.wEncCtrlTranspose bpp mode tdir)
      else if op = 5#4 then .ok (.wEncCtrlReserved1 bpp mode tdir)
      else if op = 6#4 ∨ op = 7#4 then .ok (.wEncCtrlReserved2 op bpp mode tdir)
      else .ok (.wEncCtrlReserved3 op bpp mode tdir)
    else .ok (.wEncCtrlSet op bpp mode tdir)
  | .encStatus => .error .writeReadOnly
  | .winX => .ok (.wWinX (slice data 0 16) (slice data 16 16))
  | .winY => .ok (.wWinY (slice data 0 16) (slice data 16 16))
  | .winCtrl => if bitAt data 31 then .ok (.wWinCtrlStart (bitAt data 0)) else .ok (.wWinCtrlSet (bitAt data 0))
  | .winCmd => .ok (.wWinCmd (slice data 0 8) (slice data 8 8) (slice data 16 8))
  | .winStatus => .error .writeReadOnly

/-- A read of a register (R114).  A write-only register has no read form (R126). -/
def decodeRead (r : Reg) : Except DecodeError Instr :=
  match r with
  | .cfgPins => .ok .rCfgPins
  | .cfgPins2 => .ok .rCfgPins2
  | .cfgWclk => .ok .rCfgWclk
  | .cfgRclk => .ok .rCfgRclk
  | .cfgCtrl => .error .readWriteOnly
  | .cfgStatus => .ok .rCfgStatus
  | .txLimit => .ok .rTxLimit
  | .rxLimit => .ok .rRxLimit
  | .pinctl => .ok .rPinctl
  | .engEnable => .ok .rEngEnable
  | .engIdle => .ok .rEngIdle
  | .engClear => .error .readWriteOnly
  | .txLevel => .ok .rTxLevel
  | .rxLevel => .ok .rRxLevel
  | .txqCw => .error .readWriteOnly
  | .txqDwb => .error .readWriteOnly
  | .txqDwt => .error .readWriteOnly
  | .txqCdr => .error .readWriteOnly
  | .rxqCdr => .ok .rRxqCdr
  | .dmaAddr => .ok .rDmaAddr
  | .dmaCount => .ok .rDmaCount
  | .dmaCtrl => .ok .rDmaCtrl
  | .dmaAbort => .ok .rDmaAbort
  | .encSrc => .ok .rEncSrc
  | .encDst => .ok .rEncDst
  | .encCount => .ok .rEncCount
  | .encPal => .ok .rEncPal
  | .encPalLen => .ok .rEncPalLen
  | .encFg => .ok .rEncFg
  | .encBg => .ok .rEncBg
  | .encDim => .ok .rEncDim
  | .encCtrl => .ok .rEncCtrl
  | .encStatus => .ok .rEncStatus
  | .winX => .ok .rWinX
  | .winY => .ok .rWinY
  | .winCtrl => .ok .rWinCtrl
  | .winCmd => .ok .rWinCmd
  | .winStatus => .ok .rWinStatus

/-- R111, R112: the fields of an access word and its total decoding.  Where several of R406's reasons hold at once, which
name is given is a DESIGN CHOICE (log 8): bits [47:45], then alignment, then the map, then the DATA of a read, then the
direction. -/
def decodeAccess (w : AccessWord) : Except DecodeError Instr :=
  let off := slice w 32 12
  let data := slice w 0 32
  if slice w 45 3 ≠ 0#3 then .error .unmappedOffset
  else if slice off 0 2 ≠ 0#2 then .error .badAccess
  else
    match Reg.ofOffset off with
    | none => .error .unmappedOffset
    | some r =>
      if bitAt w 44 then decodeWrite r data
      else if data ≠ 0#32 then .error .badAccess
      else decodeRead r

/-- A queue word in the format of the place it is pulled from (R120 to R123, R125); the bits above the unit are ignored
(R45). -/
def decodeUnit (k : UnitKind) (w : Word) : Instr :=
  match k with
  | .cw => .qunitCw (bitAt w 8) (slice w 0 8)
  | .dwb => .qunitDwb (slice w 0 8)
  | .dwt => .qunitDwt (slice w 16 8) (slice w 8 8) (slice w 0 8)
  | .cdrCount => .qunitCdrCount (slice w 0 16)
  | .cdrCmd => .qunitCdrCmd (slice w 0 8)

/-- Decoding of whatever an agent fetched: only an access word can be no instruction. -/
def decode (x : Encoded) : Except DecodeError Instr :=
  match x with
  | .access w => decodeAccess w
  | .txUnit k w => .ok (decodeUnit k w)
  | .rxUnit b => .ok (.qunitRx b)
  | .memw a n v => .ok (.memw a n v)
  | .memr a n => .ok (.memr a n)
  | .delay t => .ok (.delay t)

/-- The instruction of the opcode table's word `w` of `nbits` bits, numbered as the table does (log 9).  A word of 48 bits
is an access word (R111).  The five 32-bit queue-unit rows have no fixed bit and share all their words; which row a word
belongs to is told by the queue it stands in (R125), which a bare word does not have, so 32 bits are read as the first of
the five rows, QUNIT.CW; 8 bits are QUNIT.RX.  The three host pseudo-operations have no word. -/
def decodeTableWord (nbits w : Nat) : Option Instr :=
  if 2 ^ nbits ≤ w then none
  else if nbits = 48 then (decode (.access (BitVec.ofNat 48 w))).toOption
  else if nbits = 32 then (decode (.txUnit .cw (BitVec.ofNat 32 w))).toOption
  else if nbits = 8 then (decode (.rxUnit (BitVec.ofNat 8 w))).toOption
  else none

/-! ## Encoding (R111, R114, R120 to R124); ignored bits are written 0 -/

/-- The access word of a write (R111). -/
def writeWord (r : Reg) (data : Word) : AccessWord := 0#3 ++ 1#1 ++ r.offset ++ data

/-- The access word of a read (R111). -/
def readWord (r : Reg) : AccessWord := 0#3 ++ 0#1 ++ r.offset ++ 0#32

/-- DATA of an ENC_CTRL write (R54). -/
def encCtrlData (start : Bool) (op bpp : BitVec 4) (mode : BitVec 2) (tdir : Bool) : Word :=
  BitVec.ofBool start ++ 0#20 ++ BitVec.ofBool tdir ++ mode ++ bpp ++ op

/-- DATA of a DMA_CTRL write (R49). -/
def dmaCtrlData (en : Bool) (size : BitVec 2) (incr : Bool) (qsel : BitVec 3) : Word :=
  0#25 ++ qsel ++ BitVec.ofBool incr ++ size ++ BitVec.ofBool en

/-- DATA of a WIN_CTRL write (R59). -/
def winCtrlData (start orient : Bool) : Word := BitVec.ofBool start ++ 0#30 ++ BitVec.ofBool orient

/-- The encoding of an instruction. -/
def encode (i : Instr) : Encoded :=
  match i with
  | .wCfgPins dataBase pinDc pinWr pinRd => .access (writeWord .cfgPins (pinRd ++ pinWr ++ pinDc ++ dataBase))
  | .rCfgPins => .access (readWord .cfgPins)
  | .wCfgPins2 pinRst pinBl => .access (writeWord .cfgPins2 (0#16 ++ pinBl ++ pinRst))
  | .rCfgPins2 => .access (readWord .cfgPins2)
  | .wCfgWclk hz => .access (writeWord .cfgWclk hz)
  | .rCfgWclk => .access (readWord .cfgWclk)
  | .wCfgRclk hz => .access (writeWord .cfgRclk hz)
  | .rCfgRclk => .access (readWord .cfgRclk)
  | .wCfgCtrlInit => .access (writeWord .cfgCtrl 1#32)
  | .wCfgCtrlNop => .access (writeWord .cfgCtrl 0#32)
  | .rCfgStatus => .access (readWord .cfgStatus)
  | .rTxLimit => .access (readWord .txLimit)
  | .rRxLimit => .access (readWord .rxLimit)
  | .wPinctl rst bl => .access (writeWord .pinctl (0#30 ++ BitVec.ofBool bl ++ BitVec.ofBool rst))
  | .rPinctl => .access (readWord .pinctl)
  | .wEngEnable en => .access (writeWord .engEnable (0#28 ++ en))
  | .rEngEnable => .access (readWord .engEnable)
  | .rEngIdle => .access (readWord .engIdle)
  | .wEngClear sel => .access (writeWord .engClear (0#28 ++ sel))
  | .rTxLevel => .access (readWord .txLevel)
  | .rRxLevel => .access (readWord .rxLevel)
  | .wTxqCw w => .access (writeWord .txqCw w)
  | .wTxqDwb w => .access (writeWord .txqDwb w)
  | .wTxqDwt w => .access (writeWord .txqDwt w)
  | .wTxqCdr w => .access (writeWord .txqCdr w)
  | .rRxqCdr => .access (readWord .rxqCdr)
  | .wDmaAddr addr => .access (writeWord .dmaAddr addr)
  | .rDmaAddr => .access (readWord .dmaAddr)
  | .wDmaCount count => .access (writeWord .dmaCount count)
  | .rDmaCount => .access (readWord .dmaCount)
  | .wDmaCtrlSubmit size incr qsel => .access (writeWord .dmaCtrl (dmaCtrlData true size incr qsel))
  | .wDmaCtrlSet size incr qsel => .access (writeWord .dmaCtrl (dmaCtrlData false size incr qsel))
  | .rDmaCtrl => .access (readWord .dmaCtrl)
  | .wDmaAbort abort => .access (writeWord .dmaAbort (0#31 ++ BitVec.ofBool abort))
  | .rDmaAbort => .access (readWord .dmaAbort)
  | .wEncSrc addr => .access (writeWord .encSrc addr)
  | .rEncSrc => .access (readWord .encSrc)
  | .wEncDst addr => .access (writeWord .encDst addr)
  | .rEncDst => .access (readWord .encDst)
  | .wEncCount count => .access (writeWord .encCount count)
  | .rEncCount => .access (readWord .encCount)
  | .wEncPal addr => .access (writeWord .encPal addr)
  | .rEncPal => .access (readWord .encPal)
  | .wEncPalLen len => .access (writeWord .encPalLen (0#23 ++ len))
  | .rEncPalLen => .access (readWord .encPalLen)
  | .wEncFg r g b => .access (writeWord .encFg (0#8 ++ r ++ g ++ b))
  | .rEncFg => .access (readWord .encFg)
  | .wEncBg r g b => .access (writeWord .encBg (0#8 ++ r ++ g ++ b))
  | .rEncBg => .access (readWord .encBg)
  | .wEncDim width height => .access (writeWord .encDim (height ++ width))
  | .rEncDim => .access (readWord .encDim)
  | .wEncCtrlSet op bpp mode tdir => .access (writeWord .encCtrl (encCtrlData false op bpp mode tdir))
  | .wEncCtrlRgb565 bpp mode tdir => .access (writeWord .encCtrl (encCtrlData true 0#4 bpp mode tdir))
  | .wEncCtrlIndexed bpp mode tdir => .access (writeWord .encCtrl (encCtrlData true 1#4 bpp mode tdir))
  | .wEncCtrlGlyph bpp mode tdir => .access (writeWord .encCtrl (encCtrlData true 2#4 bpp mode tdir))
  | .wEncCtrlBitrev bpp mode tdir => .access (writeWord .encCtrl (encCtrlData true 3#4 bpp mode tdir))
  | .wEncCtrlTranspose bpp mode tdir => .access (writeWord .encCtrl (encCtrlData true 4#4 bpp mode tdir))
  | .wEncCtrlReserved1 bpp mode tdir => .access (writeWord .encCtrl (encCtrlData true 5#4 bpp mode tdir))
  | .wEncCtrlReserved2 op bpp mode tdir => .access (writeWord .encCtrl (encCtrlData true op bpp mode tdir))
  | .wEncCtrlReserved3 op bpp mode tdir => .access (writeWord .encCtrl (encCtrlData true op bpp mode tdir))
  | .rEncCtrl => .access (readWord .encCtrl)
  | .rEncStatus => .access (readWord .encStatus)
  | .wWinX x1 x2 => .access (writeWord .winX (x2 ++ x1))
  | .rWinX => .access (readWord .winX)
  | .wWinY y1 y2 => .access (writeWord .winY (y2 ++ y1))
  | .rWinY => .access (readWord .winY)
  | .wWinCtrlStart orient => .access (writeWord .winCtrl (winCtrlData true orient))
  | .wWinCtrlSet orient => .access (writeWord .winCtrl (winCtrlData false orient))
  | .rWinCtrl => .access (readWord .winCtrl)
  | .wWinCmd col page memwr => .access (writeWord .winCmd (0#8 ++ memwr ++ page ++ col))
  | .rWinCmd => .access (readWord .winCmd)
  | .rWinStatus => .access (readWord .winStatus)
  | .qunitCw dc d => .txUnit .cw (0#23 ++ BitVec.ofBool dc ++ d)
  | .qunitDwb d => .txUnit .dwb (0#24 ++ d)
  | .qunitDwt a b c => .txUnit .dwt (0#8 ++ a ++ b ++ c)
  | .qunitCdrCount n => .txUnit .cdrCount (0#16 ++ n)
  | .qunitCdrCmd d => .txUnit .cdrCmd (0#24 ++ d)
  | .qunitRx d => .rxUnit d
  | .memw a n v => .memw a n v
  | .memr a n => .memr a n
  | .delay t => .delay t

end Sys2Proof
end

