-- ==== Sys2Proof/Machine/State.lean ====
section
/-! DEFINITION. The state of the machine as plain data (10_state R32), the names of faults, refusals and holds
(60_exceptions R404, R406, R407), the bus events (20_memory R95), and the state right after reset (R441). -/

namespace Sys2Proof.Machine

/-- The model faults of R404.  The access that raises one takes a next state with the name in `F` (R405); `step` answers
`fault` with that name at the next step, because a model may stop a faulted run there (R405).  Stopping is SAFE: the spec
makes no claim about what a faulted run does next. -/
inductive Fault where
  /-- An ENG_ENABLE write that would make two engines active or switch without deactivating (R181, R182).  Safe. -/
  | busContention
  /-- Enabling an engine or submitting a DMA transfer before INIT (R181, R233).  Safe. -/
  | notConfigured
  /-- A write of CFG_PINS, CFG_PINS2, CFG_WCLK or CFG_RCLK after INIT (R151, R156, R160, R162).  Safe. -/
  | configLocked
  /-- INIT while configured (R153).  Safe. -/
  | reInit
  /-- INIT with a clock of 0 (R153).  Safe. -/
  | clockZero
  /-- A write of DMA_ADDR, DMA_COUNT or DMA_CTRL while the channel is busy (R231, R233, R234, R237).  Safe. -/
  | dmaBusy
  /-- A push, pop, clear, submission or window START on a queue another feeder owns (R187 to R189, R200 to R202, R233,
  R322).  Safe. -/
  | queueConflict
  /-- ENG_CLEAR of an active engine (R187).  Safe. -/
  | clearActive
  /-- DMA_CTRL with SIZE = 3, QSEL >= 5, or QSEL = 4 with SIZE not 0 (R233, R234).  Safe. -/
  | reservedValue
  /-- A write of WIN_X, WIN_Y, WIN_CTRL or WIN_CMD while a window is pending (R322, R323, R325, R327, R329).  Safe. -/
  | windowBusy
  /-- A host or encoder access that overlaps a busy transfer's range, or an encoder destination that overlaps its own
  source or palette (R90, R305).  Safe. -/
  | bufferRace
  deriving DecidableEq, Repr

/-- Why a run ends in a refusal (R406).  The refused access takes a next state with `refused` set; `step` answers
`refused` with the name at the next step ("and the run ends").  Stopping is SAFE: the spec does not say what the host does
with the bus error. -/
inductive Refusal where
  /-- An instruction without a meaning; raised by no arm of this model.  Safe. -/
  | notModelled (mnemonic : String)
  /-- Bits [47:45] of the access word not 0, or OFF not in R70; raised by the host's step at decoding.  Safe. -/
  | unmappedOffset
  /-- A width other than 32 bits, OFF not a multiple of 4, or a read with DATA not 0; raised by the host's step.  Safe. -/
  | badAccess
  /-- A write of a read-only register; raised by the host's step at decoding.  Safe. -/
  | writeReadOnly
  /-- A read of a write-only register; raised by the host's step at decoding.  Safe. -/
  | readWriteOnly
  /-- MEMW or MEMR of a byte outside MemValid (R131); raised by their meanings.  Safe. -/
  | badHostMemory
  deriving DecidableEq, Repr

/-- What the host waits for (R407). -/
inductive Hold where
  | pushFull
  | popEmpty
  deriving DecidableEq, Repr

/-- The error codes of R401, by name; `ErrCode.byte` (Flags) gives the numbers. -/
inductive ErrCode where
  | ok | pinConflict | busTimeout | invalidWindow | unsupportedPixelFormat | addressError | paletteRange
  deriving DecidableEq, Repr

/-- The bus events of R95.  A level is `true` for 1. -/
inductive BusEvent where
  | init (rst : Bool) (bl : Option Bool)
  | w (dc : Bool) (d : Byte)
  | rd (d : Byte)
  | dirIn
  | settle
  | dirOut
  | rst (level : Bool)
  | bl (level : Bool)
  | delay (t : Nat)
  deriving DecidableEq, Repr

/-- `pins.dataDir` (R64). -/
inductive Dir where
  | out | inp
  deriving DecidableEq, Repr

/-- `cdr.phase` (R46). -/
inductive CdrPhase where
  | count
  | cmd (n : BitVec 16)
  | read (k : BitVec 16) (first : Bool)
  deriving DecidableEq, Repr

/-- `dma.qsel` as stored: one of the five queues of R49; 5 to 7 are never stored (R233, R234). -/
inductive QSel where
  | tx (e : Engine)
  | rx
  deriving DecidableEq, Repr

/-- The configuration registers (R33 to R38). -/
structure Cfg where
  /-- CFG_PINS (R33). -/
  pins : Word
  /-- CFG_PINS2 [15:0]; bits [31:16] are reserved and read 0 (R34). -/
  pins2 : BitVec 16
  /-- CFG_WCLK (R35). -/
  wclk : Word
  /-- CFG_RCLK (R35). -/
  rclk : Word
  /-- CFG_STATUS.CONFIGURED (R37). -/
  configured : Bool
  /-- CFG_STATUS.ERR (R37). -/
  err : ErrCode
  /-- TXLIMIT (R38). -/
  txLimit : Word
  /-- RXLIMIT (R38). -/
  rxLimit : Word
  deriving DecidableEq, Repr

/-- PINCTL (R39). -/
structure Pinctl where
  rst : Bool
  bl : Bool
  deriving DecidableEq, Repr

/-- The engines' state (R40 to R46). -/
structure Eng where
  /-- ENG_ENABLE [3:0] (R41). -/
  enable : BitVec 4
  /-- TXQ[0] (R44), oldest word first. -/
  txqCw : List Word
  /-- TXQ[1] (R44). -/
  txqDwb : List Word
  /-- TXQ[2] (R44). -/
  txqDwt : List Word
  /-- TXQ[3] (R44). -/
  txqCdr : List Word
  /-- RXQ (R44), oldest byte first. -/
  rxq : List Byte
  /-- cdr.phase (R46). -/
  phase : CdrPhase
  deriving DecidableEq, Repr

/-- The DMA channel (R47 to R52). -/
structure Dma where
  /-- DMA_ADDR (R47). -/
  addr : Word
  /-- DMA_COUNT (R48). -/
  count : Word
  /-- DMA_CTRL.SIZE (R49). -/
  size : AccessSize
  /-- DMA_CTRL.INCR (R49). -/
  incr : Bool
  /-- DMA_CTRL.QSEL (R49). -/
  qsel : QSel
  /-- DMA_CTRL.BUSY (R49). -/
  busy : Bool
  /-- DMA_CTRL.ERR (R49). -/
  err : ErrCode
  /-- DMA_ABORT [0] (R50). -/
  abortPending : Bool
  /-- dma.grace (R51). -/
  grace : Bool
  /-- dma.lo (R52), exact. -/
  lo : Nat
  /-- dma.hi (R52), exact: it may be 2^32 (R233). -/
  hi : Nat
  deriving DecidableEq, Repr

/-- The pixel encoder's registers (R53 to R55). -/
structure Enc where
  /-- ENC_SRC. -/
  src : Word
  /-- ENC_DST. -/
  dst : Word
  /-- ENC_COUNT. -/
  count : Word
  /-- ENC_PAL. -/
  pal : Word
  /-- ENC_PALLEN [8:0]. -/
  palLen : BitVec 9
  /-- ENC_FG [23:0]. -/
  fg : BitVec 24
  /-- ENC_BG [23:0]. -/
  bg : BitVec 24
  /-- ENC_DIM. -/
  dim : Word
  /-- ENC_CTRL.OP (R54). -/
  op : BitVec 4
  /-- ENC_CTRL.BPP (R54). -/
  bpp : BitVec 4
  /-- ENC_CTRL.MODE (R54). -/
  mode : BitVec 2
  /-- ENC_CTRL.TDIR (R54). -/
  tdir : Bool
  /-- ENC_STATUS.ERR (R55). -/
  err : ErrCode
  deriving DecidableEq, Repr

/-- The window controller's registers (R58 to R62). -/
structure Win where
  /-- WIN_X (R58). -/
  x : Word
  /-- WIN_Y (R58). -/
  y : Word
  /-- WIN_CTRL.ORIENT (R59). -/
  orient : Bool
  /-- WIN_CMD [23:0] (R60). -/
  cmd : BitVec 24
  /-- WIN_STATUS.ERR (R61). -/
  err : ErrCode
  /-- win.pending (R62), next unit first. -/
  pending : List (BitVec 9)
  deriving DecidableEq, Repr

/-- The pins (R63 to R65). -/
structure Pins where
  /-- pins.driven (R63). -/
  driven : Bool
  /-- pins.dataDir (R64). -/
  dataDir : Dir
  /-- pins.D (R64). -/
  d : Byte
  /-- pins.DC (R64). -/
  dc : Bool
  /-- pins.WR (R64). -/
  wr : Bool
  /-- pins.RD (R64). -/
  rd : Bool
  /-- pins.RST (R64). -/
  rst : Bool
  /-- pins.BL (R64). -/
  bl : Bool
  deriving DecidableEq, Repr

/-- The host agent (R4, R31, R110, R407).  Its state is the platform's, not the block's. -/
structure HostAgent where
  /-- The operations still to run, next first (R110). -/
  program : List HostOp
  /-- The index of the next operation in the program as it was loaded (R31). -/
  pos : Nat
  /-- What the host waits for (R407); `none` while it is not held. -/
  held : Option Hold
  /-- Every value a register read or MEMR has returned, oldest first (R71, R111, R131). -/
  reads : List Word
  deriving DecidableEq, Repr

/-- MODEL'S OWN FIELDS, not the spec's: the choices the spec leaves open, as plain data that the step reads and advances.
The next choices may be listed; past the list they are the free values `Config.schedule` and `Config.draw8`. -/
structure World where
  /-- The next turns, next first. -/
  sched : List Turn
  /-- How many steps have been tried. -/
  clock : Nat
  /-- The bytes the device answers next, next first. -/
  device : List Byte
  /-- How many bytes the device has answered. -/
  draws : Nat
  deriving DecidableEq, Repr

/-- System memory (R80): the bytes written since power-on, at strictly rising addresses.  See Machine/Memory. -/
abbrev Memory := List Host.Cell

/-- The machine: the record of R32, system memory (R80), the host (R4) and the parameters (R10). -/
structure State where
  params : Params
  cfg : Cfg
  pinctl : Pinctl
  eng : Eng
  dma : Dma
  enc : Enc
  win : Win
  pins : Pins
  /-- `F`, the model faults recorded so far, oldest first, each once (R66). -/
  faults : List Fault
  /-- `refused` (R67): the spec's boolean is `refused.isSome`; the name is R406's. -/
  refused : Option Refusal
  /-- The bus trace, oldest event first (R68). -/
  trace : List BusEvent
  mem : Memory
  host : HostAgent
  world : World
  deriving DecidableEq, Repr

/-- The state after power-on reset (R441) of a machine with parameters `p`, with no program loaded.  The levels of the
pins other than `driven` have no reset value in the spec; DESIGN CHOICE (log 7): the idle levels of R64 and R65. -/
def State.resetWith (p : Params) : State where
  params := p
  cfg :=
    { pins := 0#32, pins2 := 0xFF00#16, wclk := 0#32, rclk := 0#32, configured := false, err := .ok,
      txLimit := 0#32, rxLimit := 0#32 }
  pinctl := { rst := true, bl := false }
  eng :=
    { enable := 0#4, txqCw := [], txqDwb := [], txqDwt := [], txqCdr := [], rxq := [], phase := .count }
  dma :=
    { addr := 0#32, count := 0#32, size := .b1, incr := false, qsel := .tx .cw, busy := false, err := .ok,
      abortPending := false, grace := false, lo := 0, hi := 0 }
  enc :=
    { src := 0#32, dst := 0#32, count := 0#32, pal := 0#32, palLen := 0#9, fg := 0#24, bg := 0#24, dim := 0#32,
      op := 0#4, bpp := 0#4, mode := 0#2, tdir := false, err := .ok }
  win := { x := 0#32, y := 0#32, orient := false, cmd := 0x2C2B2A#24, err := .ok, pending := [] }
  pins :=
    { driven := false, dataDir := .out, d := 0#8, dc := true, wr := true, rd := true, rst := true, bl := false }
  faults := []
  refused := none
  trace := []
  mem := []
  host := { program := [], pos := 0, held := none, reads := [] }
  world := { sched := [], clock := 0, device := [], draws := 0 }

/-- The machine right after reset, with the parameters of 95_test_vectors §0 (log 4). -/
def State.reset : State := State.resetWith Params.testChoices

end Sys2Proof.Machine
end

