-- ==== Sys2Proof/Machine/Memory.lean ====
section
/-! DEFINITION. System memory (20_memory §1, §2): the one canonical form, reading and writing of bytes and of
little-endian values, and the checks on byte ranges (R83, R90, R305). -/

namespace Sys2Proof.Machine

/-! ## Bytes -/

/-- The canonical form: addresses strictly rising and within the 32-bit address space (R80).  An address that is not
listed has no value written, so no entry can equal it. -/
abbrev Memory.wf (m : Memory) : Prop :=
  m.Pairwise (fun p q => p.1 < q.1) ∧ ∀ p ∈ m, p.1 < 2 ^ 32

/-- The byte written at `a`, if any. -/
def Memory.find (m : Memory) (a : Nat) : Option Byte := m.lookup a

/-- `MemByte(a)` (R15).  A byte that nothing has written since power-on is a FREE VALUE (U18; log 5). -/
def Memory.read (m : Memory) (a : Nat) : Byte := (m.find a).getD (Config.powerOnByte a)

/-- One byte written at `a`. -/
def Memory.write : Memory → Nat → Byte → Memory
  | [], a, b => [(a, b)]
  | (x, v) :: m, a, b =>
    if a < x then (a, b) :: (x, v) :: m
    else if a = x then (a, b) :: m
    else (x, v) :: Memory.write m a b

/-- The address `a + i`, modulo 2^32 (R13). -/
def byteAddr (a : Word) (i : Nat) : Nat := (a + BitVec.ofNat 32 i).toNat

/-- `MemRead(a, n)` (R15, R82: little-endian), as a 32-bit word for n up to 4. -/
def Memory.readLE (m : Memory) (a : Word) : Nat → Word
  | 0 => 0#32
  | n + 1 => m.readLE a n ||| ((m.read (byteAddr a n)).zeroExtend 32 <<< (8 * n))

/-- `MemWrite(a, n, v)` (R15, R82): byte i is `v[8i+7 : 8i]`. -/
def Memory.writeLE (m : Memory) (a : Word) (v : Word) : Nat → Memory
  | 0 => m
  | n + 1 => (m.writeLE a v n).write (byteAddr a n) (slice32 v n)
where
  /-- `v[8i+7 : 8i]`. -/
  slice32 (v : Word) (i : Nat) : Byte := v.extractLsb' (8 * i) 8

/-- Byte `i` of `dst .. dst + n - 1` written with `out i`, for rising `i`; where `out i` is `none` nothing is written. -/
def Memory.fill (m : Memory) (dst : Nat) (out : Nat → Option Byte) : Nat → Memory
  | 0 => m
  | n + 1 =>
    match out n with
    | some b => (m.fill dst out n).write (dst + n) b
    | none => m.fill dst out n

/-! ## Byte ranges -/

/-- A range of `len` bytes from `start` (R83), exact naturals. -/
structure Span where
  start : Nat
  len : Nat
  deriving DecidableEq, Repr

/-- MemValid(a) (R10, R80). -/
def memValid (p : Params) (a : Nat) : Bool :=
  decide (a < 2 ^ 32) && p.memRanges.any fun r => decide (r.lo ≤ a) && decide (a < r.hi)

/-- Whether the stretches cover every address from `a` up to `e`, jumping from stretch to stretch (at most `fuel`
jumps; each uses another stretch). -/
def coveredBy (rs : List MemRange) : Nat → Nat → Nat → Bool
  | 0, a, e => decide (e ≤ a)
  | fuel + 1, a, e =>
    decide (e ≤ a) ||
      match rs.find? fun r => decide (r.lo ≤ a) && decide (a < r.hi) with
      | some r => coveredBy rs fuel r.hi e
      | none => false

/-- `rangeOK(a, len)` (R83): empty, or no wrap past 2^32 and every byte valid (`rangeOk_iff` in Laws/Memory). -/
def rangeOk (p : Params) (r : Span) : Bool :=
  decide (r.len = 0) ||
    (decide (r.start + r.len ≤ 2 ^ 32) && coveredBy p.memRanges p.memRanges.length r.start (r.start + r.len))

/-- Two ranges share a byte. -/
def Span.overlaps (r q : Span) : Bool :=
  decide (0 < r.len) && decide (0 < q.len) && decide (r.start < q.start + q.len) && decide (q.start < r.start + r.len)

end Sys2Proof.Machine
end

