-- ==== Sys2Proof/Machine/Operands.lean ====
section
/-! DEFINITION. The operand forms: the codes inside registers, the pin list and the limits of INIT (41_config), the window
units (45_window), the pixel functions and byte ranges of the encoder (44_pixel_encoding), and the pin-level meaning of a
bus event (20_memory R96). -/

namespace Sys2Proof.Machine

/-! ## Codes -/

/-- R40: the engine's index, which is its bit in ENG_ENABLE, ENG_IDLE and ENG_CLEAR. -/
def engineIndex : Engine → Nat
  | .cw => 0
  | .dwb => 1
  | .dwt => 2
  | .cdr => 3

/-- The engines in the order of their indices. -/
def engines : List Engine := [.cw, .dwb, .dwt, .cdr]

/-- The ENG_ENABLE value in which only engine `e` is active. -/
def engineBit (e : Engine) : BitVec 4 := 1#4 <<< engineIndex e

/-- R49, R131: bytes of an access. -/
def sizeBytes : AccessSize → Nat
  | .b1 => 1
  | .b2 => 2
  | .b4 => 4

/-- R49 SIZE as read. -/
def sizeBits : AccessSize → BitVec 2
  | .b1 => 0#2
  | .b2 => 1#2
  | .b4 => 2#2

/-- R49 SIZE as written; 3 is reserved. -/
def sizeOfBits (b : BitVec 2) : Option AccessSize :=
  if b = 0#2 then some .b1 else if b = 1#2 then some .b2 else if b = 2#2 then some .b4 else none

/-- R49 QSEL as read. -/
def qselBits : QSel → BitVec 3
  | .tx .cw => 0#3
  | .tx .dwb => 1#3
  | .tx .dwt => 2#3
  | .tx .cdr => 3#3
  | .rx => 4#3

/-- R49 QSEL as written; 5 to 7 are reserved. -/
def qselOfBits (b : BitVec 3) : Option QSel :=
  if b = 0#3 then some (.tx .cw) else if b = 1#3 then some (.tx .dwb) else if b = 2#3 then some (.tx .dwt)
  else if b = 3#3 then some (.tx .cdr) else if b = 4#3 then some .rx else none

/-- The SIZE and QSEL of a DMA_CTRL write; `none` for the reserved values SIZE = 3, QSEL >= 5, and QSEL = 4 with SIZE not
0 (R233, R234, R127). -/
def dmaFields (size : BitVec 2) (qsel : BitVec 3) : Option (AccessSize × QSel) :=
  match sizeOfBits size, qselOfBits qsel with
  | some sz, some q => if q = .rx ∧ sz ≠ .b1 then none else some (sz, q)
  | _, _ => none

/-- `ceil(a / b)` (R13). -/
def ceilDiv (a b : Nat) : Nat := (a + b - 1) / b

/-! ## The pins and the limits (R153 to R155) -/

/-- CFG_PINS.DATA_BASE (R33). -/
def pinDataBase (c : Cfg) : Byte := slice c.pins 0 8
/-- CFG_PINS.PIN_DC (R33). -/
def pinDc (c : Cfg) : Byte := slice c.pins 8 8
/-- CFG_PINS.PIN_WR (R33). -/
def pinWr (c : Cfg) : Byte := slice c.pins 16 8
/-- CFG_PINS.PIN_RD (R33). -/
def pinRd (c : Cfg) : Byte := slice c.pins 24 8
/-- CFG_PINS2.PIN_RST (R34). -/
def pinRst (c : Cfg) : Byte := slice c.pins2 0 8
/-- CFG_PINS2.PIN_BL (R34). -/
def pinBl (c : Cfg) : Byte := slice c.pins2 8 8

/-- Whether the block has a backlight line (R34, R156). -/
def hasBl (c : Cfg) : Bool := pinBl c != 0xFF#8

/-- The list L of R154, exact. -/
def pinList (c : Cfg) : List Nat :=
  (List.range 8).map (fun i => (pinDataBase c).toNat + i)
    ++ [(pinDc c).toNat, (pinWr c).toNat, (pinRd c).toNat, (pinRst c).toNat]
    ++ if hasBl c then [(pinBl c).toNat] else []

/-- Some element of the list equals a later one. -/
def hasRepeat : List Nat → Bool
  | [] => false
  | a :: as => as.contains a || hasRepeat as

/-- `pinConflict()` (R154). -/
def pinConflict (p : Params) (c : Cfg) : Bool :=
  (pinList c).any (fun i => decide (p.nPins ≤ i)) || hasRepeat (pinList c)

/-- A quotient as a limit: at least 1, at most 2^32 - 1 (R155). -/
def saturateLimit (q : Nat) : Word := BitVec.ofNat 32 (min (2 ^ 32 - 1) (max 1 q))

/-- `txLimit()` (R155; 90_conflicts C6 keeps the read clock). -/
def txLimitOf (p : Params) (c : Cfg) : Word := saturateLimit (20000 * p.maxFill * p.bytesPerPixel / c.rclk.toNat)

/-- `rxLimit()` (R155). -/
def rxLimitOf (p : Params) (c : Cfg) : Word := saturateLimit (20000 * p.maxRead / c.rclk.toNat)

/-! ## The window units (R321, R335) -/

/-- A command unit of CW: bit 8 = 0, DC low. -/
def cmdUnit (c : Byte) : BitVec 9 := 0#1 ++ c

/-- A payload unit of CW: bit 8 = 1, DC high. -/
def dataUnit (d : Byte) : BitVec 9 := 1#1 ++ d

/-- The two bytes of a 16-bit bound, high byte first. -/
def boundUnits (v : BitVec 16) : List (BitVec 9) := [dataUnit (slice v 8 8), dataUnit (slice v 0 8)]

/-- WIN_X [15:0]. -/
def winX1 (w : Win) : BitVec 16 := slice w.x 0 16
/-- WIN_X [31:16]. -/
def winX2 (w : Win) : BitVec 16 := slice w.x 16 16
/-- WIN_Y [15:0]. -/
def winY1 (w : Win) : BitVec 16 := slice w.y 0 16
/-- WIN_Y [31:16]. -/
def winY2 (w : Win) : BitVec 16 := slice w.y 16 16

/-- `winUnits()` (R321): landscape sends x to the column command, portrait sends y there (R335). -/
def winUnits (w : Win) : List (BitVec 9) :=
  let c := if w.orient then (winY1 w, winY2 w) else (winX1 w, winX2 w)
  let p := if w.orient then (winX1 w, winX2 w) else (winY1 w, winY2 w)
  [cmdUnit (slice w.cmd 0 8)] ++ boundUnits c.1 ++ boundUnits c.2
    ++ [cmdUnit (slice w.cmd 8 8)] ++ boundUnits p.1 ++ boundUnits p.2
    ++ [cmdUnit (slice w.cmd 16 8)]

/-! ## Pixel functions -/

/-- A colour as its three bytes. -/
structure Rgb where
  r : Byte
  g : Byte
  b : Byte
  deriving DecidableEq, Repr

/-- The bytes of a colour in wire order: R, G, B. -/
def channel (c : Rgb) (j : Nat) : Byte :=
  match j with
  | 0 => c.r
  | 1 => c.g
  | _ => c.b

/-- `rgb565(b0, b1)` (R293). -/
def rgb565 (b0 b1 : Byte) : Rgb where
  r := b0 &&& 0xF8#8
  g := ((b0 &&& 0x07#8) <<< 5) ||| ((b1 >>> 3) &&& 0x1C#8)
  b := b1 <<< 3

/-- `pack565(r, g, b)` (R294), the bytes (b0, b1). -/
def pack565 (c : Rgb) : Byte × Byte :=
  ((c.r &&& 0xF8#8) ||| (c.g >>> 5), ((c.g <<< 3) &&& 0xE0#8) ||| (c.b >>> 3))

/-- `rev8(v)` (R300): bit i of the result is bit 7 - i of v. -/
def rev8 (v : Byte) : Byte :=
  BitVec.ofBool (bitAt v 0) ++ BitVec.ofBool (bitAt v 1) ++ BitVec.ofBool (bitAt v 2) ++ BitVec.ofBool (bitAt v 3)
    ++ BitVec.ofBool (bitAt v 4) ++ BitVec.ofBool (bitAt v 5) ++ BitVec.ofBool (bitAt v 6) ++ BitVec.ofBool (bitAt v 7)

/-- A byte from its bits, `f 0` being the most significant (R302). -/
def byteOfBits (f : Nat → Bool) : Byte :=
  BitVec.ofBool (f 0) ++ BitVec.ofBool (f 1) ++ BitVec.ofBool (f 2) ++ BitVec.ofBool (f 3)
    ++ BitVec.ofBool (f 4) ++ BitVec.ofBool (f 5) ++ BitVec.ofBool (f 6) ++ BitVec.ofBool (f 7)

/-- A 24-bit colour register: [23:16] R, [15:8] G, [7:0] B (R53). -/
def rgbOf (v : BitVec 24) : Rgb := ⟨slice v 16 8, slice v 8 8, slice v 0 8⟩

/-- `idx(k)` (R296): pixel k of N bits in the stream at `src`, most significant end of each byte first. -/
def pixelIndex (m : Memory) (src n k : Nat) : Nat :=
  let p := k * n
  ((m.read (src + p / 8)).toNat >>> (8 - n - p % 8)) &&& ((1 <<< n) - 1)

/-- A palette entry, stored B, G, R, 0 (R57, R296). -/
def paletteEntry (m : Memory) (pal i : Nat) : Rgb :=
  ⟨m.read (pal + 4 * i + 2), m.read (pal + 4 * i + 1), m.read (pal + 4 * i)⟩

/-- `min(ENC_PALLEN, 256)` (R284). -/
def palEntries (e : Enc) : Nat := min e.palLen.toNat 256

/-- Bit k of the stream at `src`, most significant bit of each byte first (R298). -/
def glyphBit (m : Memory) (src k : Nat) : Bool := bitAt (m.read (src + k / 8)) (7 - k % 8)

/-- `pix(x, y)` in the column-major layout of HB bytes a column (R302). -/
def pixColumn (m : Memory) (base hb x y : Nat) : Bool := bitAt (m.read (base + (x * hb + y / 8))) (7 - y % 8)

/-- `pix(x, y)` in the row-major layout of WB bytes a row (R302). -/
def pixRow (m : Memory) (base wb x y : Nat) : Bool := bitAt (m.read (base + (y * wb + x / 8))) (7 - x % 8)

/-! ## What an encoder START does: its ranges (R306), its palette check and its output bytes -/

/-- One encoder operation. -/
structure EncJob where
  /-- The format check of R271 step (1) passes. -/
  formatOk : Bool
  /-- The source and palette ranges, `R \ {dst}` of R271. -/
  inputs : List Span
  /-- The destination range; GLYPH reads it as well, which adds no byte to check. -/
  dst : Span
  /-- The palette check of R271 step (4) passes. -/
  paletteOk : Bool
  /-- Byte i of the destination; `none` leaves it untouched. -/
  out : Nat → Option Byte

/-- RGB565 (R292). -/
def rgb565Job (e : Enc) (m : Memory) : EncJob where
  formatOk := true
  inputs := [⟨e.src.toNat, 2 * e.count.toNat⟩]
  dst := ⟨e.dst.toNat, 3 * e.count.toNat⟩
  paletteOk := true
  out := fun i =>
    let a := e.src.toNat + 2 * (i / 3)
    some (channel (rgb565 (m.read a) (m.read (a + 1))) (i % 3))

/-- INDEXED (R295, R296). -/
def indexedJob (e : Enc) (m : Memory) : EncJob where
  formatOk := decide (e.bpp = 1#4) || decide (e.bpp = 2#4) || decide (e.bpp = 4#4) || decide (e.bpp = 8#4)
  inputs := [⟨e.src.toNat, ceilDiv (e.count.toNat * e.bpp.toNat) 8⟩, ⟨e.pal.toNat, 4 * palEntries e⟩]
  dst := ⟨e.dst.toNat, 3 * e.count.toNat⟩
  paletteOk :=
    (List.range e.count.toNat).all fun k => decide (pixelIndex m e.src.toNat e.bpp.toNat k < palEntries e)
  out := fun i =>
    some (channel (paletteEntry m e.pal.toNat (pixelIndex m e.src.toNat e.bpp.toNat (i / 3))) (i % 3))

/-- GLYPH (R297, R298).  MODE 0 and 3 write the background, 1 halves the destination byte, 2 leaves it. -/
def glyphJob (e : Enc) (m : Memory) : EncJob where
  formatOk := true
  inputs := [⟨e.src.toNat, ceilDiv e.count.toNat 8⟩]
  dst := ⟨e.dst.toNat, 3 * e.count.toNat⟩
  paletteOk := true
  out := fun i =>
    if glyphBit m e.src.toNat (i / 3) then some (channel (rgbOf e.fg) (i % 3))
    else if e.mode = 1#2 then some (m.read (e.dst.toNat + i) >>> 1)
    else if e.mode = 2#2 then none
    else some (channel (rgbOf e.bg) (i % 3))

/-- BITREV (R299). -/
def bitrevJob (e : Enc) (m : Memory) : EncJob where
  formatOk := true
  inputs := [⟨e.src.toNat, e.count.toNat⟩]
  dst := ⟨e.dst.toNat, e.count.toNat⟩
  paletteOk := true
  out := fun i => some (rev8 (m.read (e.src.toNat + i)))

/-- ENC_DIM [15:0], the width W. -/
def dimW (e : Enc) : Nat := (slice e.dim 0 16).toNat
/-- ENC_DIM [31:16], the height H. -/
def dimH (e : Enc) : Nat := (slice e.dim 16 16).toNat

/-- TRANSPOSE (R301, R302).  Padding bits of the output are 0. -/
def transposeJob (e : Enc) (m : Memory) : EncJob :=
  let w := dimW e
  let h := dimH e
  let hb := ceilDiv h 8
  let wb := ceilDiv w 8
  { formatOk := true
    inputs := [⟨e.src.toNat, if e.tdir then h * wb else w * hb⟩]
    dst := ⟨e.dst.toNat, if e.tdir then w * hb else h * wb⟩
    paletteOk := true
    out := fun i =>
      if e.tdir then
        some (byteOfBits fun j =>
          decide (i % hb * 8 + j < h) && pixRow m e.src.toNat wb (i / hb) (i % hb * 8 + j))
      else
        some (byteOfBits fun j =>
          decide (i % wb * 8 + j < w) && pixColumn m e.src.toNat hb (i % wb * 8 + j) (i / wb)) }

/-- A reserved OP (R304): the format check fails; nothing is read or written. -/
def reservedJob : EncJob where
  formatOk := false
  inputs := []
  dst := ⟨0, 0⟩
  paletteOk := true
  out := fun _ => none

/-! ## Pin changes of a bus event (R96) -/

/-- One pin change, as a waveform shows it. -/
inductive PinChange where
  | d (v : Byte)
  | dc (l : Bool)
  | wr (l : Bool)
  | rd (l : Bool)
  | rst (l : Bool)
  | bl (l : Bool)
  | dataDir (dir : Dir)
  /-- The device drives the lane and the block samples it. -/
  | sample (v : Byte)
  deriving DecidableEq, Repr

/-- The pin changes an event stands for, in order (R96; R95 for Init, Rst and Bl).  In a read DC goes to 1 before the strobe
(R191). -/
def pinChanges (ev : BusEvent) : List PinChange :=
  match ev with
  | .init rst bl =>
    [.dataDir .out, .dc true, .wr true, .rd true, .rst rst] ++ (match bl with | some l => [.bl l] | none => [])
  | .w dc d => [.d d, .dc dc, .wr false, .wr true]
  | .rd d => [.dc true, .rd false, .sample d, .rd true]
  | .dirIn => [.dataDir .inp]
  | .settle => []
  | .dirOut => [.dataDir .out]
  | .rst l => [.rst l]
  | .bl l => [.bl l]
  | .delay _ => []

end Sys2Proof.Machine
end

