-- ==== Sys2Proof/Machine/Flags.lean ====
section
/-! DEFINITION. The status flags and what each register reads (10_state R69, R71; 60_exceptions R400, R401).  The block has
no condition codes. -/

namespace Sys2Proof.Machine

/-- R401: the number of an error code. -/
def errByte : ErrCode → Byte
  | .ok => 0x00#8
  | .pinConflict => 0x01#8
  | .busTimeout => 0x02#8
  | .invalidWindow => 0x03#8
  | .unsupportedPixelFormat => 0x04#8
  | .addressError => 0x05#8
  | .paletteRange => 0x06#8

/-- TXQ[e] (R44). -/
def State.txq (s : State) (e : Engine) : List Word :=
  match e with
  | .cw => s.eng.txqCw
  | .dwb => s.eng.txqDwb
  | .dwt => s.eng.txqDwt
  | .cdr => s.eng.txqCdr

/-- ENG_ENABLE[e] = 1: engine e is active (R41). -/
def State.active (s : State) (e : Engine) : Bool := bitAt s.eng.enable (engineIndex e)

/-- Bit e of ENG_IDLE (R42, R184). -/
def State.idle (s : State) (e : Engine) : Bool :=
  match e with
  | .cw => s.eng.txqCw.isEmpty
  | .dwb => s.eng.txqDwb.isEmpty
  | .dwt => s.eng.txqDwt.isEmpty
  | .cdr => s.eng.txqCdr.isEmpty && decide (s.eng.phase = .count)

/-- WIN_CTRL.BUSY: win.pending is not empty (R59). -/
def State.winBusy (s : State) : Bool := !s.win.pending.isEmpty

/-- Another feeder owns TXQ[e]: the DMA (R188, R200 to R202) or, for CW, the window sequencer (R188, R334). -/
def State.txOwned (s : State) (e : Engine) : Bool :=
  (s.dma.busy && decide (s.dma.qsel = .tx e)) || (decide (e = .cw) && s.winBusy)

/-- The DMA owns RXQ (R189). -/
def State.rxOwned (s : State) : Bool := s.dma.busy && decide (s.dma.qsel = .rx)

/-- "feeder(e) is busy" of R187. -/
def State.feederBusy (s : State) (e : Engine) : Bool := s.txOwned e || (decide (e = .cdr) && s.rxOwned)

/-- No further unit fits (R44). -/
def State.txFull (s : State) (e : Engine) : Bool := decide (s.params.qDepth ≤ (s.txq e).length)

/-! ## The value each readable register returns -/

/-- R157. -/
def State.cfgPins2Word (s : State) : Word := 0#16 ++ s.cfg.pins2
/-- R164. -/
def State.cfgStatusWord (s : State) : Word := 0#16 ++ errByte s.cfg.err ++ 0#7 ++ BitVec.ofBool s.cfg.configured
/-- R159. -/
def State.pinctlWord (s : State) : Word := 0#30 ++ BitVec.ofBool s.pinctl.bl ++ BitVec.ofBool s.pinctl.rst
/-- R183. -/
def State.engEnableWord (s : State) : Word := 0#28 ++ s.eng.enable
/-- R184. -/
def State.engIdleWord (s : State) : Word :=
  0#28 ++ BitVec.ofBool (s.idle .cdr) ++ BitVec.ofBool (s.idle .dwt) ++ BitVec.ofBool (s.idle .dwb)
    ++ BitVec.ofBool (s.idle .cw)
/-- R185: four 8-bit fields. -/
def State.txLevelWord (s : State) : Word :=
  BitVec.ofNat 8 s.eng.txqCdr.length ++ BitVec.ofNat 8 s.eng.txqDwt.length ++ BitVec.ofNat 8 s.eng.txqDwb.length
    ++ BitVec.ofNat 8 s.eng.txqCw.length
/-- R186, R43: [7:0]; the other bits read 0. -/
def State.rxLevelWord (s : State) : Word := 0#24 ++ BitVec.ofNat 8 s.eng.rxq.length
/-- R235. -/
def State.dmaCtrlWord (s : State) : Word :=
  0#16 ++ errByte s.dma.err ++ 0#1 ++ qselBits s.dma.qsel ++ BitVec.ofBool s.dma.incr ++ sizeBits s.dma.size
    ++ BitVec.ofBool s.dma.busy
/-- R242. -/
def State.dmaAbortWord (s : State) : Word := 0#31 ++ BitVec.ofBool s.dma.abortPending
/-- R285. -/
def State.encPalLenWord (s : State) : Word := 0#23 ++ s.enc.palLen
/-- R287. -/
def State.encFgWord (s : State) : Word := 0#8 ++ s.enc.fg
/-- R289. -/
def State.encBgWord (s : State) : Word := 0#8 ++ s.enc.bg
/-- R273: START reads 0. -/
def State.encCtrlWord (s : State) : Word :=
  0#21 ++ BitVec.ofBool s.enc.tdir ++ s.enc.mode ++ s.enc.bpp ++ s.enc.op
/-- R274. -/
def State.encStatusWord (s : State) : Word := 0#24 ++ errByte s.enc.err
/-- R324: BUSY is bit 30, ORIENT bit 0. -/
def State.winCtrlWord (s : State) : Word :=
  0#1 ++ BitVec.ofBool s.winBusy ++ 0#29 ++ BitVec.ofBool s.win.orient
/-- R330. -/
def State.winCmdWord (s : State) : Word := 0#8 ++ s.win.cmd
/-- R332. -/
def State.winStatusWord (s : State) : Word := 0#24 ++ errByte s.win.err

end Sys2Proof.Machine
end

