-- ==== Sys2Proof/Machine/Ops.lean ====
section
/-! DEFINITION. The named operations on the state: outcomes (00_scope R17), the error channel (60_exceptions), the queues,
the bus cycles (42_engines R190, R191), and what the host and the device do around an access. -/

namespace Sys2Proof.Machine

/-! ## Outcomes.  The block has no trap entry and no trap return (R411, R412): these are all it has in their place. -/

/-- `raise Fault(f)` (R17, R405): the name is added to `F`, whatever was written before stays. -/
def State.raise (s : State) (f : Fault) : State :=
  if s.faults.contains f then s else { s with faults := s.faults ++ [f] }

/-- `refuse(r)` (R406): `refused` is set, nothing else changes. -/
def State.refuse (s : State) (r : Refusal) : State := { s with refused := some r }

/-- `hold(h)` (R407): the access has no effect; it runs again from its start when the host is tried next. -/
def State.hold (s : State) (h : Hold) : State := { s with host.held := some h }

/-- The host tries its access: it is not held now. -/
def State.unhold (s : State) : State := { s with host.held := none }

/-- The value of a register read or MEMR goes to the host (R71, R111, R131). -/
def State.hostReturn (s : State) (v : Word) : State := { s with host.reads := s.host.reads ++ [v] }

/-- The host's operation is done: the next one stands first (R31, R110). -/
def State.hostAdvance (s : State) : State :=
  { s with host.program := s.host.program.tail, host.pos := s.host.pos + 1 }

/-- The refusal that a word which is no instruction gets (R112, R406). -/
def refusalOf : DecodeError → Refusal
  | .unmappedOffset => .unmappedOffset
  | .badAccess => .badAccess
  | .writeReadOnly => .writeReadOnly
  | .readWriteOnly => .readWriteOnly

/-! ## The error channel (R400) -/

/-- `report(CFG, c)`. -/
def State.reportCfg (s : State) (c : ErrCode) : State := { s with cfg.err := c }
/-- `report(DMA, c)`. -/
def State.reportDma (s : State) (c : ErrCode) : State := { s with dma.err := c }
/-- `report(ENC, c)`. -/
def State.reportEnc (s : State) (c : ErrCode) : State := { s with enc.err := c }
/-- `report(WIN, c)`. -/
def State.reportWin (s : State) (c : ErrCode) : State := { s with win.err := c }

/-! ## Queues (R14, R44) -/

/-- TXQ[e] <- q. -/
def State.setTxq (s : State) (e : Engine) (q : List Word) : State :=
  match e with
  | .cw => { s with eng.txqCw := q }
  | .dwb => { s with eng.txqDwb := q }
  | .dwt => { s with eng.txqDwt := q }
  | .cdr => { s with eng.txqCdr := q }

/-- `push(TXQ[e], w)`. -/
def State.pushTx (s : State) (e : Engine) (w : Word) : State := s.setTxq e (s.txq e ++ [w])

/-- `pop(TXQ[e])`: the rest of the queue. -/
def State.popTx (s : State) (e : Engine) : State := s.setTxq e (s.txq e).tail

/-- `push(RXQ, b)`. -/
def State.pushRx (s : State) (b : Byte) : State := { s with eng.rxq := s.eng.rxq ++ [b] }

/-- `pop(RXQ)`: the rest of the queue. -/
def State.popRx (s : State) : State := { s with eng.rxq := s.eng.rxq.tail }

/-- cdr.phase <- p. -/
def State.setPhase (s : State) (p : CdrPhase) : State := { s with eng.phase := p }

/-- A host push to TXQ[e] (R188, R200 to R202): the conflict is checked before the room (R408). -/
def State.hostPush (s : State) (e : Engine) (w : Word) : State :=
  if s.txOwned e then s.raise .queueConflict
  else if s.txFull e then s.hold .pushFull
  else s.pushTx e w

/-- ENG_ENABLE <- en. -/
def State.setEnable (s : State) (en : BitVec 4) : State := { s with eng.enable := en }

/-- The effect of ENG_CLEAR on one selected engine (R187). -/
def State.clearEngine (s : State) (e : Engine) : State :=
  match e with
  | .cdr => ({ s with eng.rxq := [], eng.phase := .count } : State).setTxq .cdr []
  | e => s.setTxq e []

/-! ## The bus (R95, R190, R191) -/

/-- `emit(ev)` (R16). -/
def State.emit (s : State) (ev : BusEvent) : State := { s with trace := s.trace ++ [ev] }

/-- `wcycle(dc, d)` (R190): after the strobe WR is 1 again. -/
def State.wcycle (s : State) (dc : Bool) (d : Byte) : State :=
  ({ s with pins.d := d, pins.dc := dc, pins.wr := true } : State).emit (.w dc d)

/-- `rcycle()` (R191) with the byte `d` that the device answered: DC is 1, and after the strobe RD is 1 again. -/
def State.rcycle (s : State) (d : Byte) : State :=
  ({ s with pins.dc := true, pins.rd := true } : State).emit (.rd d)

/-- The data lane becomes input (R196). -/
def State.dirIn (s : State) : State := ({ s with pins.dataDir := .inp } : State).emit .dirIn

/-- The data lane becomes output and the default direction word is restored (R198, R199). -/
def State.dirOut (s : State) : State := ({ s with pins.dataDir := .out } : State).emit .dirOut

/-- `cdrTerminate()` (R199). -/
def State.cdrTerminate (s : State) : State :=
  match s.eng.phase with
  | .count => s
  | .cmd _ => s.setPhase .count
  | .read _ _ => s.dirOut.setPhase .count

/-! ## The device (R205) -/

/-- The byte the device answers to the next read strobe, `draw8()`. -/
def State.deviceByte (s : State) : Byte :=
  match s.world.device with
  | d :: _ => d
  | [] => Config.draw8 s.world.draws

/-- The device has answered. -/
def State.drawn (s : State) : State :=
  { s with world.device := s.world.device.tail, world.draws := s.world.draws + 1 }

/-! ## The scheduler (R5, R409) -/

/-- Whose step is tried next. -/
def State.nextTurn (s : State) : Turn :=
  match s.world.sched with
  | t :: _ => t
  | [] => Config.schedule s.world.clock

/-- The choice is used up. -/
def State.tick (s : State) : State :=
  { s with world.sched := s.world.sched.tail, world.clock := s.world.clock + 1 }

/-! ## Memory accesses of the host (R90, R131) -/

/-- The addresses of a host access; past 2^32 - 1 they go on at 0 (R13; log 11). -/
def hostBytes (a : Word) (n : AccessSize) : List Nat := (List.range (sizeBytes n)).map (byteAddr a)

/-- Every byte of a host access is valid (R131). -/
def State.hostValid (s : State) (a : Word) (n : AccessSize) : Bool := (hostBytes a n).all (memValid s.params)

/-- Some byte of a host access lies in [dma.lo, dma.hi) (R90). -/
def State.hostTouchesTransfer (s : State) (a : Word) (n : AccessSize) : Bool :=
  (hostBytes a n).any fun b => decide (s.dma.lo ≤ b) && decide (b < s.dma.hi)

/-- The range [dma.lo, dma.hi) of the current or last transfer (R52). -/
def State.dmaSpan (s : State) : Span := ⟨s.dma.lo, s.dma.hi - s.dma.lo⟩

end Sys2Proof.Machine
end

