-- ==== Sys2Proof/Machine/BusConfig.lean ====
section
/-! DEFINITION. The meanings of 41_config: bus configuration, INIT, the limits, and the reset and backlight lines. -/

namespace Sys2Proof.Machine

/-- A configuration write: refused by Fault(ConfigLocked) once configured (R151, R156, R160, R162). -/
def State.configWrite (s : State) (c : Cfg) : State :=
  if s.cfg.configured then s.raise .configLocked else { s with cfg := c }

/-- R151. -/
def execWCfgPins (dataBase pinDc pinWr pinRd : Byte) (s : State) : Host.Outcome State Fault Refusal :=
  .next (s.configWrite { s.cfg with pins := pinRd ++ pinWr ++ pinDc ++ dataBase })

/-- R152. -/
def execRCfgPins (s : State) : Host.Outcome State Fault Refusal := .next (s.hostReturn s.cfg.pins)

/-- R156. -/
def execWCfgPins2 (pinRst pinBl : Byte) (s : State) : Host.Outcome State Fault Refusal :=
  .next (s.configWrite { s.cfg with pins2 := pinBl ++ pinRst })

/-- R157. -/
def execRCfgPins2 (s : State) : Host.Outcome State Fault Refusal := .next (s.hostReturn s.cfgPins2Word)

/-- R160. -/
def execWCfgWclk (hz : Word) (s : State) : Host.Outcome State Fault Refusal :=
  .next (s.configWrite { s.cfg with wclk := hz })

/-- R161. -/
def execRCfgWclk (s : State) : Host.Outcome State Fault Refusal := .next (s.hostReturn s.cfg.wclk)

/-- R162. -/
def execWCfgRclk (hz : Word) (s : State) : Host.Outcome State Fault Refusal :=
  .next (s.configWrite { s.cfg with rclk := hz })

/-- R163. -/
def execRCfgRclk (s : State) : Host.Outcome State Fault Refusal := .next (s.hostReturn s.cfg.rclk)

/-- The effect of a successful INIT (R153): the limits, the backlight off, the pins driven, `Init` on the trace. -/
def State.initialised (s : State) : State :=
  let t : State :=
    { s with
      cfg :=
        { s.cfg with
          err := .ok, txLimit := txLimitOf s.params s.cfg, rxLimit := rxLimitOf s.params s.cfg, configured := true }
      pinctl.bl := false
      pins :=
        { s.pins with
          driven := true, dataDir := .out, dc := true, wr := true, rd := true, rst := s.pinctl.rst,
          bl := if hasBl s.cfg then false else s.pins.bl } }
  t.emit (.init s.pinctl.rst (if hasBl s.cfg then some false else none))

/-- R153, in the order of R408. -/
def execWCfgCtrlInit (s : State) : Host.Outcome State Fault Refusal :=
  .next
    (if s.cfg.configured then s.raise .reInit
     else if s.cfg.wclk = 0#32 ∨ s.cfg.rclk = 0#32 then s.raise .clockZero
     else if pinConflict s.params s.cfg then s.reportCfg .pinConflict
     else s.initialised)

/-- R167: no effect. -/
def execWCfgCtrlNop (s : State) : Host.Outcome State Fault Refusal := .next s

/-- R164. -/
def execRCfgStatus (s : State) : Host.Outcome State Fault Refusal := .next (s.hostReturn s.cfgStatusWord)

/-- R165. -/
def execRTxLimit (s : State) : Host.Outcome State Fault Refusal := .next (s.hostReturn s.cfg.txLimit)

/-- R166. -/
def execRRxLimit (s : State) : Host.Outcome State Fault Refusal := .next (s.hostReturn s.cfg.rxLimit)

/-- The reset line follows a changed level (R158). -/
def State.driveRst (s : State) (old new : Bool) : State :=
  if s.pins.driven && (new != old) then ({ s with pins.rst := new } : State).emit (.rst new) else s

/-- The backlight line, where there is one, follows a changed level (R158). -/
def State.driveBl (s : State) (old new : Bool) : State :=
  if s.pins.driven && hasBl s.cfg && (new != old) then ({ s with pins.bl := new } : State).emit (.bl new) else s

/-- R158: RST first, then BL. -/
def execWPinctl (rst bl : Bool) (s : State) : Host.Outcome State Fault Refusal :=
  .next
    ((({ s with pinctl := ⟨rst, bl⟩ } : State).driveRst s.pinctl.rst rst).driveBl s.pinctl.bl bl)

/-- R159. -/
def execRPinctl (s : State) : Host.Outcome State Fault Refusal := .next (s.hostReturn s.pinctlWord)

end Sys2Proof.Machine
end

