-- ==== Sys2Proof/Machine/DmaChannel.lean ====
section
/-! DEFINITION. The meanings of 43_dma and the two steps of the DMA. -/

namespace Sys2Proof.Machine

/-- A write of a descriptor register: Fault(DmaBusy) while the channel is busy (R231, R237). -/
def State.descriptorWrite (s : State) (d : Dma) : State :=
  if s.dma.busy then s.raise .dmaBusy else { s with dma := d }

/-- R231. -/
def execWDmaAddr (addr : Word) (s : State) : Host.Outcome State Fault Refusal :=
  .next (s.descriptorWrite { s.dma with addr := addr })

/-- R232. -/
def execRDmaAddr (s : State) : Host.Outcome State Fault Refusal := .next (s.hostReturn s.dma.addr)

/-- R237. -/
def execWDmaCount (count : Word) (s : State) : Host.Outcome State Fault Refusal :=
  .next (s.descriptorWrite { s.dma with count := count })

/-- R238. -/
def execRDmaCount (s : State) : Host.Outcome State Fault Refusal := .next (s.hostReturn s.dma.count)

/-- The bytes a submitted transfer may touch (R233), exact. -/
def dmaRange (d : Dma) : Span :=
  ⟨d.addr.toNat, if d.incr then d.count.toNat * sizeBytes d.size else sizeBytes d.size⟩

/-- R233 after its faults and with the fields stored: nothing for a count of 0 (R245), AddressError for a misaligned or
invalid range, else the channel is busy. -/
def State.dmaStart (s : State) : State :=
  if s.dma.count = 0#32 then s.reportDma .ok
  else if s.dma.addr.toNat % sizeBytes s.dma.size ≠ 0 ∨ rangeOk s.params (dmaRange s.dma) = false then
    s.reportDma .addressError
  else
    { s with
      dma :=
        { s.dma with
          lo := (dmaRange s.dma).start, hi := (dmaRange s.dma).start + (dmaRange s.dma).len, err := .ok,
          busy := true, abortPending := false, grace := false } }

/-- R233, in the order of R408. -/
def execWDmaCtrlSubmit (size : BitVec 2) (incr : Bool) (qsel : BitVec 3) (s : State) :
    Host.Outcome State Fault Refusal :=
  .next
    (if s.dma.busy then s.raise .dmaBusy
     else
       match dmaFields size qsel with
       | none => s.raise .reservedValue
       | some (sz, q) =>
         if s.cfg.configured = false then s.raise .notConfigured
         else if q = .tx .cw ∧ s.winBusy = true then s.raise .queueConflict
         else ({ s with dma.size := sz, dma.incr := incr, dma.qsel := q } : State).dmaStart)

/-- R234. -/
def execWDmaCtrlSet (size : BitVec 2) (incr : Bool) (qsel : BitVec 3) (s : State) :
    Host.Outcome State Fault Refusal :=
  .next
    (if s.dma.busy then s.raise .dmaBusy
     else
       match dmaFields size qsel with
       | none => s.raise .reservedValue
       | some (sz, q) => { s with dma.size := sz, dma.incr := incr, dma.qsel := q })

/-- R235. -/
def execRDmaCtrl (s : State) : Host.Outcome State Fault Refusal := .next (s.hostReturn s.dmaCtrlWord)

/-- R240. -/
def execWDmaAbort (abort : Bool) (s : State) : Host.Outcome State Fault Refusal :=
  .next
    (if abort && s.dma.busy && !s.dma.abortPending then
       { s with dma.abortPending := true, dma.grace := true }
     else s)

/-- R242. -/
def execRDmaAbort (s : State) : Host.Outcome State Fault Refusal := .next (s.hostReturn s.dmaAbortWord)

/-! ## The DMA's own steps -/

/-- The queue-ready signal of the transfer's queue (R236). -/
def State.dmaTrigger (s : State) : Bool :=
  match s.dma.qsel with
  | .tx e => decide ((s.txq e).length < s.params.qDepth)
  | .rx => !s.eng.rxq.isEmpty

/-- The unit step's enabling condition (R236). -/
def State.dmaUnitEnabled (s : State) : Bool :=
  s.dma.busy && decide (s.dma.count ≠ 0#32) && (!s.dma.abortPending || s.dma.grace) && s.dmaTrigger

/-- `complete()` (R239), which is also the effect of the abort acknowledgement (R241). -/
def State.dmaStop (s : State) : State :=
  { s with dma.busy := false, dma.abortPending := false, dma.grace := false }

/-- One unit between memory and the queue (R236). -/
def State.dmaMove (s : State) : State :=
  match s.dma.qsel with
  | .tx e => s.pushTx e (s.mem.readLE s.dma.addr (sizeBytes s.dma.size))
  | .rx =>
    match s.eng.rxq with
    | [] => s
    | b :: _ => ({ s with mem := s.mem.write s.dma.addr.toNat b } : State).popRx

/-- The counters after a unit (R236). -/
def State.dmaCountDown (s : State) : State :=
  { s with
    dma.count := s.dma.count - 1#32
    dma.addr := if s.dma.incr then s.dma.addr + BitVec.ofNat 32 (sizeBytes s.dma.size) else s.dma.addr
    dma.grace := false }

/-- The DMA's unit step (R236). -/
def State.dmaUnit (s : State) : State :=
  if s.dmaUnitEnabled then
    let t := s.dmaMove.dmaCountDown
    if t.dma.count = 0#32 then t.dmaStop else t
  else s

/-- The DMA's abort acknowledgement (R241). -/
def State.dmaAck (s : State) : State := if s.dma.abortPending then s.dmaStop else s

end Sys2Proof.Machine
end

