-- ==== Sys2Proof/Machine/Encoder.lean ====
section
/-! DEFINITION. The meanings of 44_pixel_encoding: the operand registers and the encoder, which runs whole inside the
write that starts it (R270). -/

namespace Sys2Proof.Machine

/-! ## Operand registers (R276 to R291) -/

/-- R276. -/
def execWEncSrc (addr : Word) (s : State) : Host.Outcome State Fault Refusal := .next { s with enc.src := addr }
/-- R277. -/
def execREncSrc (s : State) : Host.Outcome State Fault Refusal := .next (s.hostReturn s.enc.src)
/-- R278. -/
def execWEncDst (addr : Word) (s : State) : Host.Outcome State Fault Refusal := .next { s with enc.dst := addr }
/-- R279. -/
def execREncDst (s : State) : Host.Outcome State Fault Refusal := .next (s.hostReturn s.enc.dst)
/-- R280. -/
def execWEncCount (count : Word) (s : State) : Host.Outcome State Fault Refusal := .next { s with enc.count := count }
/-- R281. -/
def execREncCount (s : State) : Host.Outcome State Fault Refusal := .next (s.hostReturn s.enc.count)
/-- R282. -/
def execWEncPal (addr : Word) (s : State) : Host.Outcome State Fault Refusal := .next { s with enc.pal := addr }
/-- R283. -/
def execREncPal (s : State) : Host.Outcome State Fault Refusal := .next (s.hostReturn s.enc.pal)
/-- R284. -/
def execWEncPalLen (len : BitVec 9) (s : State) : Host.Outcome State Fault Refusal :=
  .next { s with enc.palLen := len }
/-- R285. -/
def execREncPalLen (s : State) : Host.Outcome State Fault Refusal := .next (s.hostReturn s.encPalLenWord)
/-- R286. -/
def execWEncFg (r g b : Byte) (s : State) : Host.Outcome State Fault Refusal :=
  .next { s with enc.fg := r ++ g ++ b }
/-- R287. -/
def execREncFg (s : State) : Host.Outcome State Fault Refusal := .next (s.hostReturn s.encFgWord)
/-- R288. -/
def execWEncBg (r g b : Byte) (s : State) : Host.Outcome State Fault Refusal :=
  .next { s with enc.bg := r ++ g ++ b }
/-- R289. -/
def execREncBg (s : State) : Host.Outcome State Fault Refusal := .next (s.hostReturn s.encBgWord)
/-- R290. -/
def execWEncDim (width height : BitVec 16) (s : State) : Host.Outcome State Fault Refusal :=
  .next { s with enc.dim := height ++ width }
/-- R291. -/
def execREncDim (s : State) : Host.Outcome State Fault Refusal := .next (s.hostReturn s.enc.dim)

/-! ## Control -/

/-- The fields an ENC_CTRL write stores (R271, R272). -/
def State.encStore (s : State) (op bpp : BitVec 4) (mode : BitVec 2) (tdir : Bool) : State :=
  { s with enc.op := op, enc.bpp := bpp, enc.mode := mode, enc.tdir := tdir }

/-- Every range of an operation passes R83 (R271 step 2). -/
def State.encRangesOk (s : State) (inputs : List Span) (dst : Span) : Bool :=
  (dst :: inputs).all (rangeOk s.params)

/-- The ownership check (R271 step 3): the destination overlaps an input (R305), or the operation races a busy transfer
(`raceWithDma`, R90 cases c and d: the inputs race only a transfer that writes memory, QSEL = 4; log 27). -/
def State.encRace (s : State) (inputs : List Span) (dst : Span) : Bool :=
  inputs.any dst.overlaps ||
    (s.dma.busy &&
      (dst.overlaps s.dmaSpan || (decide (s.dma.qsel = .rx) && inputs.any fun r => r.overlaps s.dmaSpan)))

/-- `startEncoder()` (R271) after the fields are stored: format, ranges, ownership, palette, transform. -/
def State.startEncoder (s : State) (job : EncJob) : State :=
  if job.formatOk = false then s.reportEnc .unsupportedPixelFormat
  else if s.encRangesOk job.inputs job.dst = false then s.reportEnc .addressError
  else if s.encRace job.inputs job.dst = true then s.raise .bufferRace
  else if job.paletteOk = false then s.reportEnc .paletteRange
  else ({ s with mem := s.mem.fill job.dst.start job.out job.dst.len } : State).reportEnc .ok

/-- R272. -/
def execWEncCtrlSet (op bpp : BitVec 4) (mode : BitVec 2) (tdir : Bool) (s : State) :
    Host.Outcome State Fault Refusal :=
  .next (s.encStore op bpp mode tdir)

/-- R292. -/
def execWEncCtrlRgb565 (bpp : BitVec 4) (mode : BitVec 2) (tdir : Bool) (s : State) :
    Host.Outcome State Fault Refusal :=
  let t := s.encStore 0#4 bpp mode tdir
  .next (t.startEncoder (rgb565Job t.enc t.mem))

/-- R295. -/
def execWEncCtrlIndexed (bpp : BitVec 4) (mode : BitVec 2) (tdir : Bool) (s : State) :
    Host.Outcome State Fault Refusal :=
  let t := s.encStore 1#4 bpp mode tdir
  .next (t.startEncoder (indexedJob t.enc t.mem))

/-- R297. -/
def execWEncCtrlGlyph (bpp : BitVec 4) (mode : BitVec 2) (tdir : Bool) (s : State) :
    Host.Outcome State Fault Refusal :=
  let t := s.encStore 2#4 bpp mode tdir
  .next (t.startEncoder (glyphJob t.enc t.mem))

/-- R299. -/
def execWEncCtrlBitrev (bpp : BitVec 4) (mode : BitVec 2) (tdir : Bool) (s : State) :
    Host.Outcome State Fault Refusal :=
  let t := s.encStore 3#4 bpp mode tdir
  .next (t.startEncoder (bitrevJob t.enc t.mem))

/-- R301. -/
def execWEncCtrlTranspose (bpp : BitVec 4) (mode : BitVec 2) (tdir : Bool) (s : State) :
    Host.Outcome State Fault Refusal :=
  let t := s.encStore 4#4 bpp mode tdir
  .next (t.startEncoder (transposeJob t.enc t.mem))

/-- R304, OP 5. -/
def execWEncCtrlReserved1 (bpp : BitVec 4) (mode : BitVec 2) (tdir : Bool) (s : State) :
    Host.Outcome State Fault Refusal :=
  .next ((s.encStore 5#4 bpp mode tdir).startEncoder reservedJob)

/-- R304, OP 6 and 7. -/
def execWEncCtrlReserved2 (op bpp : BitVec 4) (mode : BitVec 2) (tdir : Bool) (s : State) :
    Host.Outcome State Fault Refusal :=
  .next ((s.encStore op bpp mode tdir).startEncoder reservedJob)

/-- R304, OP 8 to 15. -/
def execWEncCtrlReserved3 (op bpp : BitVec 4) (mode : BitVec 2) (tdir : Bool) (s : State) :
    Host.Outcome State Fault Refusal :=
  .next ((s.encStore op bpp mode tdir).startEncoder reservedJob)

/-- R273. -/
def execREncCtrl (s : State) : Host.Outcome State Fault Refusal := .next (s.hostReturn s.encCtrlWord)

/-- R274. -/
def execREncStatus (s : State) : Host.Outcome State Fault Refusal := .next (s.hostReturn s.encStatusWord)

end Sys2Proof.Machine
end

