-- ==== Sys2Proof/Machine/Engines.lean ====
section
/-! DEFINITION. The meanings of 42_engines: the host accesses that enable, observe, feed and drain the engines, and the
units each engine pulls (30_encoding R120 to R124), whose meaning is the engine's step on that unit. -/

namespace Sys2Proof.Machine

/-- The bits of an enable set (R181). -/
def popcount4 (b : BitVec 4) : Nat :=
  (bitAt b 0).toNat + (bitAt b 1).toNat + (bitAt b 2).toNat + (bitAt b 3).toNat

/-- R181. -/
def execWEngEnable (en : BitVec 4) (s : State) : Host.Outcome State Fault Refusal :=
  .next
    (if en ≠ 0#4 ∧ s.cfg.configured = false then s.raise .notConfigured
     else if 1 < popcount4 en then s.raise .busContention
     else if s.eng.enable ≠ 0#4 ∧ en ≠ 0#4 ∧ en ≠ s.eng.enable then s.raise .busContention
     else (if s.eng.enable = 8#4 ∧ en ≠ 8#4 then s.cdrTerminate else s).setEnable en)

/-- R183. -/
def execREngEnable (s : State) : Host.Outcome State Fault Refusal := .next (s.hostReturn s.engEnableWord)

/-- R184. -/
def execREngIdle (s : State) : Host.Outcome State Fault Refusal := .next (s.hostReturn s.engIdleWord)

/-- R185. -/
def execRTxLevel (s : State) : Host.Outcome State Fault Refusal := .next (s.hostReturn s.txLevelWord)

/-- R186. -/
def execRRxLevel (s : State) : Host.Outcome State Fault Refusal := .next (s.hostReturn s.rxLevelWord)

/-- The engines an ENG_CLEAR write selects (R187). -/
def selected (sel : BitVec 4) : List Engine := engines.filter fun e => bitAt sel (engineIndex e)

/-- R187. -/
def execWEngClear (sel : BitVec 4) (s : State) : Host.Outcome State Fault Refusal :=
  .next
    (if (selected sel).any s.active then s.raise .clearActive
     else if (selected sel).any s.feederBusy then s.raise .queueConflict
     else (selected sel).foldl State.clearEngine s)

/-- R188. -/
def execWTxqCw (w : Word) (s : State) : Host.Outcome State Fault Refusal := .next (s.hostPush .cw w)

/-- R200. -/
def execWTxqDwb (w : Word) (s : State) : Host.Outcome State Fault Refusal := .next (s.hostPush .dwb w)

/-- R201. -/
def execWTxqDwt (w : Word) (s : State) : Host.Outcome State Fault Refusal := .next (s.hostPush .dwt w)

/-- R202. -/
def execWTxqCdr (w : Word) (s : State) : Host.Outcome State Fault Refusal := .next (s.hostPush .cdr w)

/-- R189. -/
def execRRxqCdr (s : State) : Host.Outcome State Fault Refusal :=
  .next
    (if s.rxOwned then s.raise .queueConflict
     else
       match s.eng.rxq with
       | [] => s.hold .popEmpty
       | b :: _ => s.popRx.hostReturn (b.zeroExtend 32))

/-! ## The units.  An engine's step pulls the word at the head of its queue and runs it; where the step is not enabled
(R192 to R197) nothing happens. -/

/-- R192, R120. -/
def execQunitCw (dc : Bool) (d : Byte) (s : State) : Host.Outcome State Fault Refusal :=
  .next (if s.active .cw && !s.eng.txqCw.isEmpty then (s.popTx .cw).wcycle dc d else s)

/-- R193, R121: DC is 1 whatever the unit's upper bits hold. -/
def execQunitDwb (d : Byte) (s : State) : Host.Outcome State Fault Refusal :=
  .next (if s.active .dwb && !s.eng.txqDwb.isEmpty then (s.popTx .dwb).wcycle true d else s)

/-- R194, R122: three cycles in one step. -/
def execQunitDwt (a b c : Byte) (s : State) : Host.Outcome State Fault Refusal :=
  .next
    (if s.active .dwt && !s.eng.txqDwt.isEmpty then
       (((s.popTx .dwt).wcycle true a).wcycle true b).wcycle true c
     else s)

/-- R195, R123: in phase COUNT. -/
def execQunitCdrCount (n : BitVec 16) (s : State) : Host.Outcome State Fault Refusal :=
  .next
    (if s.active .cdr && !s.eng.txqCdr.isEmpty then
       match s.eng.phase with
       | .count => (s.popTx .cdr).setPhase (.cmd n)
       | .cmd _ => s
       | .read _ _ => s
     else s)

/-- R196, R123: in phase CMD(n). -/
def execQunitCdrCmd (d : Byte) (s : State) : Host.Outcome State Fault Refusal :=
  .next
    (if s.active .cdr && !s.eng.txqCdr.isEmpty then
       match s.eng.phase with
       | .count => s
       | .cmd n => (((s.popTx .cdr).wcycle false d).dirIn).setPhase (.read n true)
       | .read _ _ => s
     else s)

/-- The read step's enabling condition (R197). -/
def State.readEnabled (s : State) : Bool :=
  s.active .cdr && decide (s.eng.rxq.length < s.params.qDepth) &&
    match s.eng.phase with
    | .count => false
    | .cmd _ => false
    | .read k _ => decide (k ≠ 0#16)

/-- R197, R124: one read strobe, the device having answered `d`. -/
def execQunitRx (d : Byte) (s : State) : Host.Outcome State Fault Refusal :=
  .next
    (if s.readEnabled then
       match s.eng.phase with
       | .count => s
       | .cmd _ => s
       | .read k first =>
         (((if first then s.emit .settle else s).rcycle d).pushRx d).setPhase (.read (k - 1#16) false)
     else s)

/-- R198: the restore step, in phase READ(0, first); it pulls no unit. -/
def State.cdrRestore (s : State) : State := s.dirOut.setPhase .count

/-- The restore step's enabling condition (R198). -/
def State.restoreEnabled (s : State) : Bool :=
  s.active .cdr &&
    match s.eng.phase with
    | .count => false
    | .cmd _ => false
    | .read k _ => decide (k = 0#16)

end Sys2Proof.Machine
end

