-- ==== Sys2Proof/Machine/HostMemory.lean ====
section
/-! DEFINITION. The meanings of the host pseudo-operations (30_encoding R131): MEMW, MEMR, DELAY. -/

namespace Sys2Proof.Machine

/-- R131, R90 case (a). -/
def execMemw (a : Word) (n : AccessSize) (v : Word) (s : State) : Host.Outcome State Fault Refusal :=
  .next
    (if s.hostValid a n = false then s.refuse .badHostMemory
     else if s.dma.busy = true ∧ s.hostTouchesTransfer a n = true then s.raise .bufferRace
     else { s with mem := s.mem.writeLE a v (sizeBytes n) })

/-- R131, R90 case (b): a read races only a transfer that writes memory (QSEL = 4; log 27). -/
def execMemr (a : Word) (n : AccessSize) (s : State) : Host.Outcome State Fault Refusal :=
  .next
    (if s.hostValid a n = false then s.refuse .badHostMemory
     else if s.rxOwned = true ∧ s.hostTouchesTransfer a n = true then s.raise .bufferRace
     else s.hostReturn (s.mem.readLE a (sizeBytes n)))

/-- R131: `emit(Delay(t))`, nothing else. -/
def execDelay (t : Nat) (s : State) : Host.Outcome State Fault Refusal := .next (s.emit (.delay t))

end Sys2Proof.Machine
end

