-- ==== Sys2Proof/Machine/Window.lean ====
section
/-! DEFINITION. The meanings of 45_window and the window sequencer's step. -/

namespace Sys2Proof.Machine

/-- A write of a window register: Fault(WindowBusy) while units are pending (R323, R325, R327, R329). -/
def State.windowWrite (s : State) (w : Win) : State :=
  if s.winBusy then s.raise .windowBusy else { s with win := w }

/-- R325. -/
def execWWinX (x1 x2 : BitVec 16) (s : State) : Host.Outcome State Fault Refusal :=
  .next (s.windowWrite { s.win with x := x2 ++ x1 })

/-- R326. -/
def execRWinX (s : State) : Host.Outcome State Fault Refusal := .next (s.hostReturn s.win.x)

/-- R327. -/
def execWWinY (y1 y2 : BitVec 16) (s : State) : Host.Outcome State Fault Refusal :=
  .next (s.windowWrite { s.win with y := y2 ++ y1 })

/-- R328. -/
def execRWinY (s : State) : Host.Outcome State Fault Refusal := .next (s.hostReturn s.win.y)

/-- x1 > x2 or y1 > y2 (R322). -/
def windowInvalid (w : Win) : Bool := decide (winX2 w < winX1 w) || decide (winY2 w < winY1 w)

/-- R322 after ORIENT is stored: the conflict, the bounds, then the 11 units. -/
def State.winStart (s : State) : State :=
  if s.dma.busy = true ∧ s.dma.qsel = .tx .cw then s.raise .queueConflict
  else if windowInvalid s.win then s.reportWin .invalidWindow
  else ({ s with win.pending := winUnits s.win } : State).reportWin .ok

/-- R322. -/
def execWWinCtrlStart (orient : Bool) (s : State) : Host.Outcome State Fault Refusal :=
  .next (if s.winBusy then s.raise .windowBusy else ({ s with win.orient := orient } : State).winStart)

/-- R323. -/
def execWWinCtrlSet (orient : Bool) (s : State) : Host.Outcome State Fault Refusal :=
  .next (s.windowWrite { s.win with orient := orient })

/-- R324. -/
def execRWinCtrl (s : State) : Host.Outcome State Fault Refusal := .next (s.hostReturn s.winCtrlWord)

/-- R329. -/
def execWWinCmd (col page memwr : Byte) (s : State) : Host.Outcome State Fault Refusal :=
  .next (s.windowWrite { s.win with cmd := memwr ++ page ++ col })

/-- R330. -/
def execRWinCmd (s : State) : Host.Outcome State Fault Refusal := .next (s.hostReturn s.winCmdWord)

/-- R332. -/
def execRWinStatus (s : State) : Host.Outcome State Fault Refusal := .next (s.hostReturn s.winStatusWord)

/-- The window sequencer's step (R333): one pending unit into TXQ[0] where there is room. -/
def State.winStep (s : State) : State :=
  match s.win.pending with
  | [] => s
  | u :: rest =>
    if s.txFull .cw then s
    else ({ s with win.pending := rest } : State).pushTx .cw (u.zeroExtend 32)

end Sys2Proof.Machine
end

