-- ==== Sys2Proof/Machine/Dispatch.lean ====
section
/-! DEFINITION. The dispatch of an instruction to its meaning, one arm per constructor. -/

namespace Sys2Proof.Machine

def exec (i : Instr) (s : State) : Host.Outcome State Fault Refusal :=
  match i with
  | .wCfgPins dataBase pinDc pinWr pinRd => Sys2Proof.Machine.execWCfgPins dataBase pinDc pinWr pinRd s
  | .rCfgPins => Sys2Proof.Machine.execRCfgPins s
  | .wCfgPins2 pinRst pinBl => Sys2Proof.Machine.execWCfgPins2 pinRst pinBl s
  | .rCfgPins2 => Sys2Proof.Machine.execRCfgPins2 s
  | .wCfgWclk hz => Sys2Proof.Machine.execWCfgWclk hz s
  | .rCfgWclk => Sys2Proof.Machine.execRCfgWclk s
  | .wCfgRclk hz => Sys2Proof.Machine.execWCfgRclk hz s
  | .rCfgRclk => Sys2Proof.Machine.execRCfgRclk s
  | .wCfgCtrlInit => Sys2Proof.Machine.execWCfgCtrlInit s
  | .wCfgCtrlNop => Sys2Proof.Machine.execWCfgCtrlNop s
  | .rCfgStatus => Sys2Proof.Machine.execRCfgStatus s
  | .rTxLimit => Sys2Proof.Machine.execRTxLimit s
  | .rRxLimit => Sys2Proof.Machine.execRRxLimit s
  | .wPinctl rst bl => Sys2Proof.Machine.execWPinctl rst bl s
  | .rPinctl => Sys2Proof.Machine.execRPinctl s
  | .wEngEnable en => Sys2Proof.Machine.execWEngEnable en s
  | .rEngEnable => Sys2Proof.Machine.execREngEnable s
  | .rEngIdle => Sys2Proof.Machine.execREngIdle s
  | .wEngClear sel => Sys2Proof.Machine.execWEngClear sel s
  | .rTxLevel => Sys2Proof.Machine.execRTxLevel s
  | .rRxLevel => Sys2Proof.Machine.execRRxLevel s
  | .wTxqCw w => Sys2Proof.Machine.execWTxqCw w s
  | .wTxqDwb w => Sys2Proof.Machine.execWTxqDwb w s
  | .wTxqDwt w => Sys2Proof.Machine.execWTxqDwt w s
  | .wTxqCdr w => Sys2Proof.Machine.execWTxqCdr w s
  | .rRxqCdr => Sys2Proof.Machine.execRRxqCdr s
  | .wDmaAddr addr => Sys2Proof.Machine.execWDmaAddr addr s
  | .rDmaAddr => Sys2Proof.Machine.execRDmaAddr s
  | .wDmaCount count => Sys2Proof.Machine.execWDmaCount count s
  | .rDmaCount => Sys2Proof.Machine.execRDmaCount s
  | .wDmaCtrlSubmit size incr qsel => Sys2Proof.Machine.execWDmaCtrlSubmit size incr qsel s
  | .wDmaCtrlSet size incr qsel => Sys2Proof.Machine.execWDmaCtrlSet size incr qsel s
  | .rDmaCtrl => Sys2Proof.Machine.execRDmaCtrl s
  | .wDmaAbort abort => Sys2Proof.Machine.execWDmaAbort abort s
  | .rDmaAbort => Sys2Proof.Machine.execRDmaAbort s
  | .wEncSrc addr => Sys2Proof.Machine.execWEncSrc addr s
  | .rEncSrc => Sys2Proof.Machine.execREncSrc s
  | .wEncDst addr => Sys2Proof.Machine.execWEncDst addr s
  | .rEncDst => Sys2Proof.Machine.execREncDst s
  | .wEncCount count => Sys2Proof.Machine.execWEncCount count s
  | .rEncCount => Sys2Proof.Machine.execREncCount s
  | .wEncPal addr => Sys2Proof.Machine.execWEncPal addr s
  | .rEncPal => Sys2Proof.Machine.execREncPal s
  | .wEncPalLen len => Sys2Proof.Machine.execWEncPalLen len s
  | .rEncPalLen => Sys2Proof.Machine.execREncPalLen s
  | .wEncFg r g b => Sys2Proof.Machine.execWEncFg r g b s
  | .rEncFg => Sys2Proof.Machine.execREncFg s
  | .wEncBg r g b => Sys2Proof.Machine.execWEncBg r g b s
  | .rEncBg => Sys2Proof.Machine.execREncBg s
  | .wEncDim width height => Sys2Proof.Machine.execWEncDim width height s
  | .rEncDim => Sys2Proof.Machine.execREncDim s
  | .wEncCtrlSet op bpp mode tdir => Sys2Proof.Machine.execWEncCtrlSet op bpp mode tdir s
  | .wEncCtrlRgb565 bpp mode tdir => Sys2Proof.Machine.execWEncCtrlRgb565 bpp mode tdir s
  | .wEncCtrlIndexed bpp mode tdir => Sys2Proof.Machine.execWEncCtrlIndexed bpp mode tdir s
  | .wEncCtrlGlyph bpp mode tdir => Sys2Proof.Machine.execWEncCtrlGlyph bpp mode tdir s
  | .wEncCtrlBitrev bpp mode tdir => Sys2Proof.Machine.execWEncCtrlBitrev bpp mode tdir s
  | .wEncCtrlTranspose bpp mode tdir => Sys2Proof.Machine.execWEncCtrlTranspose bpp mode tdir s
  | .wEncCtrlReserved1 bpp mode tdir => Sys2Proof.Machine.execWEncCtrlReserved1 bpp mode tdir s
  | .wEncCtrlReserved2 op bpp mode tdir => Sys2Proof.Machine.execWEncCtrlReserved2 op bpp mode tdir s
  | .wEncCtrlReserved3 op bpp mode tdir => Sys2Proof.Machine.execWEncCtrlReserved3 op bpp mode tdir s
  | .rEncCtrl => Sys2Proof.Machine.execREncCtrl s
  | .rEncStatus => Sys2Proof.Machine.execREncStatus s
  | .wWinX x1 x2 => Sys2Proof.Machine.execWWinX x1 x2 s
  | .rWinX => Sys2Proof.Machine.execRWinX s
  | .wWinY y1 y2 => Sys2Proof.Machine.execWWinY y1 y2 s
  | .rWinY => Sys2Proof.Machine.execRWinY s
  | .wWinCtrlStart orient => Sys2Proof.Machine.execWWinCtrlStart orient s
  | .wWinCtrlSet orient => Sys2Proof.Machine.execWWinCtrlSet orient s
  | .rWinCtrl => Sys2Proof.Machine.execRWinCtrl s
  | .wWinCmd col page memwr => Sys2Proof.Machine.execWWinCmd col page memwr s
  | .rWinCmd => Sys2Proof.Machine.execRWinCmd s
  | .rWinStatus => Sys2Proof.Machine.execRWinStatus s
  | .qunitCw dc d => Sys2Proof.Machine.execQunitCw dc d s
  | .qunitDwb d => Sys2Proof.Machine.execQunitDwb d s
  | .qunitDwt a b c => Sys2Proof.Machine.execQunitDwt a b c s
  | .qunitCdrCount n => Sys2Proof.Machine.execQunitCdrCount n s
  | .qunitCdrCmd d => Sys2Proof.Machine.execQunitCdrCmd d s
  | .qunitRx d => Sys2Proof.Machine.execQunitRx d s
  | .memw a n v => Sys2Proof.Machine.execMemw a n v s
  | .memr a n => Sys2Proof.Machine.execMemr a n s
  | .delay t => Sys2Proof.Machine.execDelay t s

end Sys2Proof.Machine
end

