-- ==== Sys2Proof/Machine/Fetch.lean ====
section
/-! DEFINITION. What an agent fetches: the host its next operation, an engine the unit at the head of its queue, the CDR's
read step the byte on the data lane; and how a word is placed where the next step fetches it. -/

namespace Sys2Proof.Machine

/-- A register access by byte address and width, spelled as an access word (R80, R84, R111, R406).  OFF is the address
minus BASE modulo 2^32 (R13).  DESIGN CHOICE (log 8): an address that no OFF of 12 bits reaches from BASE is refused as
UnmappedOffset. -/
def busAccess (p : Params) (write : Bool) (width : Nat) (addr data : Word) : Except DecodeError Encoded :=
  if width ≠ 32 then .error .badAccess
  else if 2 ^ 12 ≤ (addr - p.base).toNat then .error .unmappedOffset
  else
    .ok (.access (0#3 ++ BitVec.ofBool write ++ slice (addr - p.base) 0 12 ++ if write then data else 0#32))

/-- What the host presents for an operation of its program. -/
def hostFetch (p : Params) (op : HostOp) : Except DecodeError Encoded :=
  match op with
  | .access w => .ok (.access w)
  | .bus write width addr data => busAccess p write width addr data
  | .memw a n v => .ok (.memw a n v)
  | .memr a n => .ok (.memr a n)
  | .delay t => .ok (.delay t)

/-- The instruction of a host operation, or the refusal of R406. -/
def hostDecode (p : Params) (op : HostOp) : Except DecodeError Instr :=
  match hostFetch p op with
  | .ok x => decode x
  | .error e => .error e

/-- The format of the CDR's next unit, told by its phase (R125). -/
def cdrUnitKind (ph : CdrPhase) : Option UnitKind :=
  match ph with
  | .count => some .cdrCount
  | .cmd _ => some .cdrCmd
  | .read _ _ => none

/-- The format of an engine's next unit. -/
def unitKind (s : State) (e : Engine) : Option UnitKind :=
  match e with
  | .cw => some .cw
  | .dwb => some .dwb
  | .dwt => some .dwt
  | .cdr => cdrUnitKind s.eng.phase

/-- What an engine's step fetches where its step is enabled (R192 to R197): the head of its queue in the format of its
place, or, in the CDR's read phase, the byte the device answers. -/
def engineFetch (s : State) (e : Engine) : Option Encoded :=
  if s.active e then
    match unitKind s e with
    | some k => (s.txq e).head?.map (Encoded.txUnit k)
    | none => if s.readEnabled then some (.rxUnit s.deviceByte) else none
  else none

/-- Where the step fetches the table word `w` of `nbits` bits next (log 9): an access word as the host's next operation
with the host's turn; 32 bits as the head of TXQ[0] with CW active and its turn; 8 bits as the byte the device answers to
the CDR's read strobe. -/
def State.placeWord (s : State) (nbits w : Nat) : State :=
  if nbits = 48 then
    { s with
      host.program := .access (BitVec.ofNat 48 w) :: s.host.program
      world.sched := .host :: s.world.sched }
  else if nbits = 32 then
    { s with
      eng.enable := engineBit .cw
      eng.txqCw := BitVec.ofNat 32 w :: s.eng.txqCw
      world.sched := .engine .cw :: s.world.sched }
  else if nbits = 8 then
    { s with
      eng.enable := engineBit .cdr
      eng.phase := .read 1#16 false
      eng.rxq := []
      world.device := BitVec.ofNat 8 w :: s.world.device
      world.sched := .engine .cdr :: s.world.sched }
  else s

end Sys2Proof.Machine
end

