-- ==== Sys2Proof/Machine/Agents.lean ====
section
/-! DEFINITION. One step of each agent (00_scope R4, R18).  An agent with no enabled step changes nothing when it is tried;
runs of this model are the interleavings of R5 with such idle tries in between (log 3). -/

namespace Sys2Proof.Machine

/-- The host's position after its access: it stays at a held access (R407) and at a refused one, where the run ends
(R406); otherwise the operation is done. -/
def State.hostDone (t : State) : State :=
  if t.host.held.isSome || t.refused.isSome then t else t.hostAdvance

/-- The host's step (R110, R131, R407). -/
def runHost (s : State) : Host.Outcome State Fault Refusal :=
  match s.host.program with
  | [] => .next s
  | op :: _ =>
    match hostDecode s.params op with
    | .error e => .next (s.refuse (refusalOf e))
    | .ok i =>
      match exec i s.unhold with
      | .next t => .next t.hostDone
      | .fault f => .fault f
      | .refused r => .refused r

/-- The device has answered where a read strobe was made. -/
def State.afterFetch (s : State) (x : Encoded) : State :=
  match x with
  | .rxUnit _ => s.drawn
  | .access _ => s
  | .txUnit _ _ => s
  | .memw _ _ _ => s
  | .memr _ _ => s
  | .delay _ => s

/-- An engine's step (R180, R192 to R198). -/
def runEngine (e : Engine) (s : State) : Host.Outcome State Fault Refusal :=
  match engineFetch s e with
  | some x =>
    match decode x with
    | .error err => .next (s.refuse (refusalOf err))
    | .ok i => exec i (s.afterFetch x)
  | none => .next (if e = .cdr ∧ s.restoreEnabled = true then s.cdrRestore else s)

/-- The step of the agent whose turn it is. -/
def runTurn (t : Turn) (s : State) : Host.Outcome State Fault Refusal :=
  match t with
  | .host => runHost s
  | .engine e => runEngine e s
  | .dmaUnit => .next s.dmaUnit
  | .dmaAck => .next s.dmaAck
  | .window => .next s.winStep

/-- One step of the machine: a faulted run is stopped at its first fault (R405), a refused run has ended (R406), else the
next agent is tried. -/
def stepState (s : State) : Host.Outcome State Fault Refusal :=
  match s.faults with
  | f :: _ => .fault f
  | [] =>
    match s.refused with
    | some r => .refused r
    | none => runTurn s.nextTurn s.tick

end Sys2Proof.Machine
end

