-- ==== Sys2Proof/Machine/Step.lean ====
section
/-! DEFINITION. The step of the machine, and placing a table word where the next step fetches it. -/

namespace Sys2Proof.Machine

/-- One step (Machine/Agents). -/
def step (s : State) : Host.Outcome State Fault Refusal := stepState s

/-- `s` with the table word stored where `step` fetches next (Machine/Fetch).  The block loads no program of its own: the
host's program comes from outside the machine, and this stands for that load (log 9). -/
def State.withFetchWord (s : State) (nbits w : Nat) : State := s.placeWord nbits w

end Sys2Proof.Machine
end

