-- ==== Sys2Proof/Safety.lean ====
section
/-! DEFINITION. What claims speak about (60_exceptions, 70_reset_and_hazards §4): runs, enabled steps, quiescent and stuck
states, fairness, the order of bus events (20_memory R97), and the invariants of the machine. -/

namespace Sys2Proof.Machine

/-! ## Runs -/

/-- `n` steps. -/
def runSteps : Nat → State → Host.Outcome State Fault Refusal
  | 0, s => .next s
  | n + 1, s =>
    match step s with
    | .next t => runSteps n t
    | .fault f => .fault f
    | .refused r => .refused r

/-- Neither faulted (R405) nor refused (R406): the run goes on. -/
def State.running (s : State) : Bool := s.faults.isEmpty && s.refused.isNone

/-- The host's operation would have an effect now: it is not held (R407). -/
def hostEnabled (s : State) : Bool :=
  match s.host.program with
  | [] => false
  | op :: _ =>
    match hostDecode s.params op with
    | .error _ => true
    | .ok i =>
      match exec i s.unhold with
      | .next t => t.host.held.isNone
      | .fault _ => true
      | .refused _ => true

/-- Whether an agent's step is enabled (R5, R180, R236, R241, R333, R407). -/
def enabledTurn (s : State) (t : Turn) : Bool :=
  match t with
  | .host => hostEnabled s
  | .engine e => (engineFetch s e).isSome || (decide (e = .cdr) && s.restoreEnabled)
  | .dmaUnit => s.dmaUnitEnabled
  | .dmaAck => s.dma.abortPending
  | .window => s.winBusy && !s.txFull .cw

/-- R455: no agent but the host has an enabled step, the host is not held, and its program is finished. -/
def Quiescent (s : State) : Prop :=
  (∀ t, t ≠ .host → enabledTurn s t = false) ∧ s.host.held = none ∧ s.host.program = []

/-- R407: the host is held and no agent has an enabled step. -/
def Stuck (s : State) : Prop := s.host.held ≠ none ∧ ∀ t, enabledTurn s t = false

/-- An infinite run of the machine. -/
def IsRun (run : Nat → State) : Prop := ∀ n, step (run n) = .next (run (n + 1))

/-- R5, R457: an agent whose step stays enabled eventually takes it. -/
def WeaklyFair (run : Nat → State) : Prop :=
  ∀ t n, ∃ m, n ≤ m ∧ (enabledTurn (run m) t = false ∨ (run m).nextTurn = t)

/-! ## The order of bus events (R95, R97) -/

/-- What the trace so far says of the bus. -/
inductive BusMode where
  /-- Before `Init`. -/
  | undriven
  /-- The data lane is output. -/
  | out
  /-- After `DirIn`, before `Settle`. -/
  | turned
  /-- Right after `Settle`. -/
  | settled
  /-- After a `Rd`. -/
  | reading
  deriving DecidableEq, Repr

/-- The bus after one more event; `none` where R97 allows no such event. -/
def busStep (m : BusMode) (ev : BusEvent) : Option BusMode :=
  match m, ev with
  | .undriven, .init _ _ => some .out
  | .undriven, .delay _ => some .undriven
  | .out, .w _ _ => some .out
  | .out, .dirIn => some .turned
  | .turned, .settle => some .settled
  | .settled, .rd _ => some .reading
  | .reading, .rd _ => some .reading
  | .turned, .dirOut => some .out
  | .reading, .dirOut => some .out
  | .out, .rst _ => some .out
  | .out, .bl _ => some .out
  | .out, .delay _ => some .out
  | .turned, .rst _ => some .turned
  | .turned, .bl _ => some .turned
  | .turned, .delay _ => some .turned
  | .reading, .rst _ => some .reading
  | .reading, .bl _ => some .reading
  | .reading, .delay _ => some .reading
  | _, _ => none

/-- The bus after a trace; `none` if some event was out of order. -/
def busMode (tr : List BusEvent) : Option BusMode :=
  tr.foldl (fun m ev => m.bind fun k => busStep k ev) (some .undriven)

/-- Where the engines' state says the bus is. -/
def phaseMode (s : State) : BusMode :=
  if s.pins.driven then
    match s.eng.phase with
    | .count => .out
    | .cmd _ => .out
    | .read _ first => if first then .turned else .reading
  else .undriven

/-- The phase READ of the CDR (R46). -/
def CdrPhase.isRead (ph : CdrPhase) : Bool :=
  match ph with
  | .count => false
  | .cmd _ => false
  | .read _ _ => true

/-! ## Encodings and reads, as claims speak of them -/

/-- Every access word with the fixed bits `m` under the mask `k` decodes to `f` of its DATA (R111, R114). -/
def Encodes (m k : AccessWord) (f : Word → Instr) : Prop :=
  ∀ w : AccessWord, w &&& k = m → decode (.access w) = .ok (f (slice w 0 32))

/-- The access word `w` is the read `i`; in every state it returns the value to the host and does nothing else (R71). -/
def ReadsAs (w : AccessWord) (i : Instr) (value : State → Nat) : Prop :=
  decode (.access w) = .ok i ∧
    ∀ s, ∃ v : Word, v.toNat = value s ∧ exec i s = .next { s with host.reads := s.host.reads ++ [v] }

/-- The number of an error code (R401). -/
def errNumber (c : ErrCode) : Nat :=
  match c with
  | .ok => 0
  | .pinConflict => 1
  | .busTimeout => 2
  | .invalidWindow => 3
  | .unsupportedPixelFormat => 4
  | .addressError => 5
  | .paletteRange => 6

/-- The invalid access words of R126: a nonzero bit of [47:45], an offset that is misaligned or not in R70, a read with
DATA, a write of a read-only register, a read of a write-only register. -/
def InvalidAccess (w : AccessWord) : Prop :=
  let off := (slice w 32 12).toNat
  slice w 45 3 ≠ 0#3 ∨ off % 4 ≠ 0 ∨
    off ∉ [0x000, 0x004, 0x008, 0x00C, 0x010, 0x014, 0x018, 0x01C, 0x020, 0x040, 0x044, 0x048, 0x04C, 0x050, 0x060,
      0x064, 0x068, 0x06C, 0x070, 0x080, 0x084, 0x088, 0x08C, 0x0C0, 0x0C4, 0x0C8, 0x0CC, 0x0D0, 0x0D4, 0x0D8, 0x0DC,
      0x0E0, 0x0E4, 0x100, 0x104, 0x108, 0x10C, 0x110] ∨
    (bitAt w 44 = false ∧ slice w 0 32 ≠ 0#32) ∨
    (bitAt w 44 = true ∧ off ∈ [0x014, 0x018, 0x01C, 0x044, 0x04C, 0x050, 0x070, 0x0E4, 0x110]) ∨
    (bitAt w 44 = false ∧ off ∈ [0x010, 0x048, 0x060, 0x064, 0x068, 0x06C])

/-- The DATA bits of a write that are no reserved bit (R33 to R62, R113); a queue takes the whole word (R45). -/
def significantData (r : Reg) : Word :=
  match r with
  | .cfgPins2 => 0x0000FFFF#32
  | .cfgCtrl => 0x00000001#32
  | .pinctl => 0x00000003#32
  | .engEnable => 0x0000000F#32
  | .engClear => 0x0000000F#32
  | .dmaCtrl => 0x0000007F#32
  | .dmaAbort => 0x00000001#32
  | .encPalLen => 0x000001FF#32
  | .encFg => 0x00FFFFFF#32
  | .encBg => 0x00FFFFFF#32
  | .encCtrl => 0x800007FF#32
  | .winCtrl => 0x80000001#32
  | .winCmd => 0x00FFFFFF#32
  | _ => 0xFFFFFFFF#32

/-- The bits of an access word that are no reserved bit of its register. -/
def significantBits (w : AccessWord) : AccessWord :=
  match Reg.ofOffset (slice w 32 12) with
  | some r => 0xFFFF#16 ++ significantData r
  | none => 0xFFFFFFFFFFFF#48

/-- The bits of a queue word that are its unit (R120 to R123). -/
def unitBits (k : UnitKind) : Word :=
  match k with
  | .cw => 0x1FF#32
  | .dwb => 0xFF#32
  | .dwt => 0xFFFFFF#32
  | .cdrCount => 0xFFFF#32
  | .cdrCmd => 0xFF#32

/-! ## The encoder's checks, as claims speak of them -/

/-- A range passes the check of R83: it is empty, or it ends by 2^32 and every byte of it is system memory. -/
def InMemory (p : Params) (r : Span) : Prop :=
  r.len = 0 ∨ (r.start + r.len ≤ 2 ^ 32 ∧ ∀ b, r.start ≤ b → b < r.start + r.len → memValid p b = true)

/-- Two ranges share a byte (R90, R305). -/
def SharesByte (r q : Span) : Prop := ∃ b, (r.start ≤ b ∧ b < r.start + r.len) ∧ q.start ≤ b ∧ b < q.start + q.len

/-- The ownership check of R271 step (3) fails: the destination shares a byte with an input (R305) or with the range of a
busy transfer (R90 case c), or an input shares one with the range of a busy transfer out of RXQ (R90 case d). -/
def EncRaces (s : State) (inputs : List Span) (dst : Span) : Prop :=
  (∃ r ∈ inputs, SharesByte dst r) ∨
    (s.dma.busy = true ∧
      (SharesByte dst ⟨s.dma.lo, s.dma.hi - s.dma.lo⟩ ∨
        (s.dma.qsel = .rx ∧ ∃ r ∈ inputs, SharesByte r ⟨s.dma.lo, s.dma.hi - s.dma.lo⟩)))

/-- The ranges of an encoder operation pass steps (2) and (3) of R271. -/
def EncAdmits (s : State) (inputs : List Span) (dst : Span) : Prop :=
  (∀ r ∈ dst :: inputs, InMemory s.params r) ∧ ¬EncRaces s inputs dst

/-- ENC_CTRL's fields and the outcome after an encoder START (R271): every other register is as before. -/
def encAfter (s : State) (op bpp : BitVec 4) (mode : BitVec 2) (tdir : Bool) (err : ErrCode) : Enc :=
  { s.enc with op := op, bpp := bpp, mode := mode, tdir := tdir, err := err }

/-! ## Invariants -/

/-- System memory keeps its one canonical form. -/
def MemoryInv (s : State) : Prop := s.mem.wf

/-- The engines, the pins and the trace agree (R41, R64, R65, R97, R182, R183, R206). -/
structure BusInv (s : State) : Prop where
  /-- At most one engine is active. -/
  oneActive : s.eng.enable = 0#4 ∨ s.eng.enable = 1#4 ∨ s.eng.enable = 2#4 ∨ s.eng.enable = 4#4 ∨ s.eng.enable = 8#4
  /-- No engine is active before INIT. -/
  configuredFirst : s.eng.enable ≠ 0#4 → s.cfg.configured = true
  /-- Outside phase COUNT the CDR is the active engine. -/
  cdrActive : s.eng.phase ≠ .count → s.eng.enable = 8#4
  /-- The data lane is input exactly in phase READ. -/
  lane : s.pins.dataDir = .inp ↔ s.eng.phase.isRead = true
  /-- The strobes are deasserted between steps. -/
  strobes : s.pins.wr = true ∧ s.pins.rd = true
  /-- INIT drives the pins and configures the block at once. -/
  driven : s.pins.driven = s.cfg.configured
  /-- The reset line follows PINCTL. -/
  rstLine : s.pins.driven = true → s.pins.rst = s.pinctl.rst
  /-- The backlight line, where there is one, follows PINCTL. -/
  blLine : s.pins.driven = true → hasBl s.cfg = true → s.pins.bl = s.pinctl.bl
  /-- Every event of the trace was in order, and the trace ends where the CDR's phase says. -/
  trace : busMode s.trace = some (phaseMode s)

/-- The queues hold what their capacity allows (R44, R62). -/
structure QueueInv (s : State) : Prop where
  cw : s.eng.txqCw.length ≤ s.params.qDepth
  dwb : s.eng.txqDwb.length ≤ s.params.qDepth
  dwt : s.eng.txqDwt.length ≤ s.params.qDepth
  cdr : s.eng.txqCdr.length ≤ s.params.qDepth
  rx : s.eng.rxq.length ≤ s.params.qDepth
  pending : s.win.pending.length ≤ 11

/-- The bytes that the rest of a transfer touches, from DMA_ADDR on. -/
def dmaRemaining (d : Dma) : Nat := if d.incr then d.count.toNat * sizeBytes d.size else sizeBytes d.size

/-- The DMA channel (R230, R233, R234, R236, R334). -/
structure DmaInv (s : State) : Prop where
  abortBusy : s.dma.abortPending = true → s.dma.busy = true
  graceAbort : s.dma.grace = true → s.dma.abortPending = true
  busyCount : s.dma.busy = true → s.dma.count ≠ 0#32
  busyConfigured : s.dma.busy = true → s.cfg.configured = true
  /-- Transfers out of RXQ move bytes. -/
  rxBytes : s.dma.qsel = .rx → s.dma.size = .b1
  /-- What is left to touch lies in the range fixed at submission. -/
  inRange : s.dma.busy = true → s.dma.lo ≤ s.dma.addr.toNat ∧ s.dma.addr.toNat + dmaRemaining s.dma ≤ s.dma.hi
  /-- That range is system memory. -/
  validRange : s.dma.busy = true →
    s.dma.hi ≤ 2 ^ 32 ∧ ∀ a, s.dma.lo ≤ a → a < s.dma.hi → memValid s.params a = true
  aligned : s.dma.busy = true → s.dma.addr.toNat % sizeBytes s.dma.size = 0
  /-- TXQ[0] has one feeder. -/
  oneFeeder : s.dma.busy = true → s.dma.qsel = .tx .cw → s.win.pending = []

/-- The error fields hold their unit's codes (R402), and the limits are set exactly by INIT (R165, R166). -/
structure StatusInv (s : State) : Prop where
  cfg : s.cfg.err = .ok ∨ s.cfg.err = .pinConflict
  dma : s.dma.err = .ok ∨ s.dma.err = .addressError
  enc : s.enc.err = .ok ∨ s.enc.err = .unsupportedPixelFormat ∨ s.enc.err = .addressError ∨ s.enc.err = .paletteRange
  win : s.win.err = .ok ∨ s.win.err = .invalidWindow
  limitsBefore : s.cfg.configured = false → s.cfg.txLimit = 0#32 ∧ s.cfg.rxLimit = 0#32
  limitsAfter : s.cfg.configured = true → 1 ≤ s.cfg.txLimit.toNat ∧ 1 ≤ s.cfg.rxLimit.toNat

/-! ## What a step may do to the record of a run -/

/-- `t` comes after `s` in a run (R10, R37, R63, R66 to R68): the parameters are the same, CONFIGURED and pins.driven stay
once set and lock the pins and clocks and the limits, `F`, `refused` and the trace only grow. -/
structure Later (s t : State) : Prop where
  params : t.params = s.params
  locked : s.cfg.configured = true →
    t.cfg.configured = true ∧ t.cfg.pins = s.cfg.pins ∧ t.cfg.pins2 = s.cfg.pins2 ∧ t.cfg.wclk = s.cfg.wclk ∧
      t.cfg.rclk = s.cfg.rclk ∧ t.cfg.txLimit = s.cfg.txLimit ∧ t.cfg.rxLimit = s.cfg.rxLimit
  driven : s.pins.driven = true → t.pins.driven = true
  faults : s.faults <+: t.faults
  refused : s.refused ≠ none → t.refused = s.refused
  trace : s.trace <+: t.trace

/-! ## The units on their way to the bus -/

/-- The bus event of a word of TXQ[0] (R192). -/
def cwEvent (w : Word) : BusEvent := .w (bitAt w 8) (slice w 0 8)

/-- The bus event of a pending window unit (R192, R321). -/
def unitEvent (u : BitVec 9) : BusEvent := .w (bitAt u 8) (slice u 0 8)

/-- What the bus has carried and will carry from the words in TXQ[0] and the pending window units, in order (R92, R333). -/
def cwOutlook (s : State) : List BusEvent := s.trace ++ s.eng.txqCw.map cwEvent ++ s.win.pending.map unitEvent

/-- The three write cycles of a DWT word (R194). -/
def dwtEvents (w : Word) : List BusEvent := [.w true (slice w 16 8), .w true (slice w 8 8), .w true (slice w 0 8)]

end Sys2Proof.Machine
end

