-- ==== Sys2Proof/Certificates/Slice0/Obligations.lean ====
section
/-! DEFINITION. The statements for the provers, in the order of the spec's files: the encoding, the step, 41_config,
42_engines, 43_dma, 44_pixel_encoding, 45_window, host memory, and the invariants. -/

open Sys2Proof Sys2Proof.Machine

/-! ## 30_encoding -/

/-- R111, R114, R120 to R124, R131: decoding the encoding of a well-formed instruction gives the instruction back, with
every operand. -/
def Obligations.DecodeOfEncodeIsTheInstruction : Prop :=
  ∀ i : Instr, WellFormed i = true → decode (encode i) = .ok i

/-- R112: whatever decodes, decodes to a well-formed instruction. -/
def Obligations.DecodedInstructionsAreWellFormed : Prop :=
  ∀ (x : Encoded) (i : Instr), decode x = .ok i → WellFormed i = true

/-- R113, R120 to R123: the encoding of what a word decodes to is that word without its reserved bits, so no bit but a
reserved one is dropped or moved. -/
def Obligations.DecodingDropsOnlyReservedBits : Prop :=
  (∀ (w : AccessWord) (i : Instr), decode (.access w) = .ok i → encode i = .access (w &&& significantBits w)) ∧
    ∀ (k : UnitKind) (w : Word), encode (decodeUnit k w) = .txUnit k (w &&& unitBits k)

/-- R126: exactly the invalid access words decode to nothing, and the host's access of one is refused with no other
effect. -/
def Obligations.InvalidAccessWordsAreRefused : Prop :=
  (∀ w : AccessWord, (∃ e, decode (.access w) = .error e) ↔ InvalidAccess w) ∧
    ∀ (s : State) (w : AccessWord) (rest : List HostOp), s.host.program = .access w :: rest → InvalidAccess w →
      ∃ r, runHost s = .next { s with refused := some r }

/-- R111, R122 and the examples of 41_config to 45_window: words written in the spec decode to what the spec says they are,
and so do a write of a read-only register and a misaligned read (R406).  The last word's OFF is also not in R70: that the
refusal is named BadAccess is the model's choice (log 8). -/
def Obligations.SpecWordsDecodeAsWritten : Prop :=
  decode (.access 0x104000000001#48) = .ok (.wEngEnable 1#4) ∧
  decode (.access 0x004400000000#48) = .ok .rEngIdle ∧
  decode (.access 0x10000B0A0800#48) = .ok (.wCfgPins 0x00#8 0x08#8 0x0A#8 0x0B#8) ∧
  decode (.access 0x108800000025#48) = .ok (.wDmaCtrlSubmit 2#2 false 2#3) ∧
  decode (.access 0x10E080000212#48) = .ok (.wEncCtrlGlyph 1#4 2#2 false) ∧
  decode (.access 0x11100000FFFF#48) = .error .writeReadOnly ∧
  decode (.access 0x000200000000#48) = .error .badAccess ∧
  decode (.access 0x1100031F0010#48) = .ok (.wWinX 0x0010#16 0x031F#16) ∧
  decode (.txUnit .dwt 0x00FF8000#32) = .ok (.qunitDwt 0xFF#8 0x80#8 0x00#8)

/-! ## The step -/

/-- R110, R112, R131, R406: the host's step runs the decoded operation, and moves past it unless it is held or refused;
an operation that decodes to nothing sets `refused` and nothing else.  The model's choices: it moves past an access that
raised a fault (log 1) and stays at a refused one (log 2), a held operation stays first (log 12), and the name of a refusal
with two reasons, UnmappedOffset for an address that no OFF reaches among them (log 8). -/
def Obligations.HostStepRunsTheDecodedOperation : Prop :=
  (∀ (s : State) (op : HostOp) (rest : List HostOp) (i : Instr) (t : State),
    s.faults = [] → s.refused = none → s.nextTurn = .host → s.host.program = op :: rest →
    hostDecode s.params op = .ok i → exec i s.tick.unhold = .next t →
    step s = .next (if t.host.held = none ∧ t.refused = none then t.hostAdvance else t)) ∧
  (∀ (s : State) (op : HostOp) (rest : List HostOp) (e : DecodeError),
    s.faults = [] → s.refused = none → s.nextTurn = .host → s.host.program = op :: rest →
    hostDecode s.params op = .error e →
    step s = .next { s.tick with refused := some (refusalOf e) }) ∧
  ∀ p : Params,
    (∀ w, hostDecode p (.access w) = decode (.access w)) ∧ (∀ a n v, hostDecode p (.memw a n v) = .ok (.memw a n v)) ∧
      (∀ a n, hostDecode p (.memr a n) = .ok (.memr a n)) ∧ (∀ t, hostDecode p (.delay t) = .ok (.delay t)) ∧
      ∀ (write : Bool) (width : Nat) (addr data : Word),
        (width ≠ 32 → hostDecode p (.bus write width addr data) = .error .badAccess) ∧
        (∀ off : BitVec 12, addr = p.base + off.zeroExtend 32 →
          hostDecode p (.bus write 32 addr data)
            = decode (.access (0#3 ++ BitVec.ofBool write ++ off ++ if write then data else 0#32))) ∧
        ((∀ off : BitVec 12, addr ≠ p.base + off.zeroExtend 32) →
          hostDecode p (.bus write 32 addr data) = .error .unmappedOffset)

/-- R120 to R125, R192 to R197: an active engine's step runs the unit at the head of its queue, read in the format of its
place; the CDR in phase READ runs a read strobe on the byte the device answers. -/
def Obligations.EngineStepRunsItsUnit : Prop :=
  ∀ s : State, s.faults = [] → s.refused = none →
    (∀ w rest, s.nextTurn = .engine .cw → s.active .cw = true → s.eng.txqCw = w :: rest →
      step s = exec (.qunitCw (bitAt w 8) (slice w 0 8)) s.tick) ∧
    (∀ w rest, s.nextTurn = .engine .dwb → s.active .dwb = true → s.eng.txqDwb = w :: rest →
      step s = exec (.qunitDwb (slice w 0 8)) s.tick) ∧
    (∀ w rest, s.nextTurn = .engine .dwt → s.active .dwt = true → s.eng.txqDwt = w :: rest →
      step s = exec (.qunitDwt (slice w 16 8) (slice w 8 8) (slice w 0 8)) s.tick) ∧
    (∀ w rest, s.nextTurn = .engine .cdr → s.active .cdr = true → s.eng.txqCdr = w :: rest → s.eng.phase = .count →
      step s = exec (.qunitCdrCount (slice w 0 16)) s.tick) ∧
    (∀ w rest n, s.nextTurn = .engine .cdr → s.active .cdr = true → s.eng.txqCdr = w :: rest → s.eng.phase = .cmd n →
      step s = exec (.qunitCdrCmd (slice w 0 8)) s.tick) ∧
    (∀ k f, s.nextTurn = .engine .cdr → s.active .cdr = true → s.eng.phase = .read k f → k ≠ 0#16 →
      s.eng.rxq.length < s.params.qDepth → step s = exec (.qunitRx s.deviceByte) s.tick.drawn)

/-- R405, R406, as the model takes them (logs 1 and 2): a faulted run stops at its first fault, a refused run has ended. -/
def Obligations.StoppedRunsStayStopped : Prop :=
  (∀ (s : State) (f : Fault) (fs : List Fault), s.faults = f :: fs → step s = .fault f) ∧
    ∀ (s : State) (r : Refusal), s.faults = [] → s.refused = some r → step s = .refused r

/-- R5, R180, R236, R333: an agent without an enabled step changes nothing when it is tried (log 3: the model lets it be
tried). -/
def Obligations.IdleAgentsChangeNothing : Prop :=
  ∀ s : State, s.faults = [] → s.refused = none →
    (s.nextTurn ≠ .host → enabledTurn s s.nextTurn = false → step s = .next s.tick) ∧
      (s.nextTurn = .host → s.host.program = [] → step s = .next s.tick)

/-! ## 41_config -/

/-- R151, R156, R160, R162: the configuration registers store DATA before INIT and raise ConfigLocked after it. -/
def Obligations.ConfigRegistersStoreUntilInit : Prop :=
  (Encodes 0x100000000000#48 0xFFFF00000000#48 fun d => .wCfgPins (slice d 0 8) (slice d 8 8) (slice d 16 8) (slice d 24 8)) ∧
  (Encodes 0x100400000000#48 0xFFFF00000000#48 fun d => .wCfgPins2 (slice d 0 8) (slice d 8 8)) ∧
  (Encodes 0x100800000000#48 0xFFFF00000000#48 .wCfgWclk) ∧
  (Encodes 0x100C00000000#48 0xFFFF00000000#48 .wCfgRclk) ∧
  (∀ (s : State) (d : Word), s.cfg.configured = false →
    exec (.wCfgPins (slice d 0 8) (slice d 8 8) (slice d 16 8) (slice d 24 8)) s = .next { s with cfg.pins := d } ∧
    exec (.wCfgPins2 (slice d 0 8) (slice d 8 8)) s = .next { s with cfg.pins2 := slice d 0 16 } ∧
    exec (.wCfgWclk d) s = .next { s with cfg.wclk := d } ∧
    exec (.wCfgRclk d) s = .next { s with cfg.rclk := d }) ∧
  ∀ (s : State) (d : Word) (a b c e : Byte), s.cfg.configured = true →
    ∀ i ∈ [Instr.wCfgPins a b c e, .wCfgPins2 a b, .wCfgWclk d, .wCfgRclk d], exec i s = .next (s.raise .configLocked)

/-- R153: INIT, case by case in the order of its checks. -/
def Obligations.InitConfiguresAndDrivesThePins : Prop :=
  (Encodes 0x101000000001#48 0xFFFF00000001#48 fun _ => .wCfgCtrlInit) ∧
  ∀ s : State,
    (s.cfg.configured = true → exec .wCfgCtrlInit s = .next (s.raise .reInit)) ∧
    (s.cfg.configured = false →
      ((s.cfg.wclk = 0#32 ∨ s.cfg.rclk = 0#32) → exec .wCfgCtrlInit s = .next (s.raise .clockZero)) ∧
      (s.cfg.wclk ≠ 0#32 → s.cfg.rclk ≠ 0#32 →
        (pinConflict s.params s.cfg = true → exec .wCfgCtrlInit s = .next { s with cfg.err := .pinConflict }) ∧
        (pinConflict s.params s.cfg = false →
          exec .wCfgCtrlInit s = .next
            { s with
              cfg :=
                { s.cfg with
                  err := .ok, configured := true, txLimit := txLimitOf s.params s.cfg
                  rxLimit := rxLimitOf s.params s.cfg }
              pinctl := { s.pinctl with bl := false }
              pins :=
                { s.pins with
                  driven := true, dataDir := .out, dc := true, wr := true, rd := true, rst := s.pinctl.rst
                  bl := if pinBl s.cfg = 0xFF#8 then s.pins.bl else false }
              trace := s.trace ++ [.init s.pinctl.rst (if pinBl s.cfg = 0xFF#8 then none else some false)] })))

/-- R154: a pin conflict is an index out of range or an index used twice. -/
def Obligations.PinConflictIsAnIndexOutOfRangeOrShared : Prop :=
  ∀ (p : Params) (c : Cfg),
    let base := (slice c.pins 0 8).toNat
    let bl := (slice c.pins2 8 8).toNat
    let l := [base, base + 1, base + 2, base + 3, base + 4, base + 5, base + 6, base + 7, (slice c.pins 8 8).toNat,
      (slice c.pins 16 8).toNat, (slice c.pins 24 8).toNat, (slice c.pins2 0 8).toNat] ++
        if bl = 0xFF then [] else [bl]
    pinConflict p c = true ↔ (∃ i ∈ l, p.nPins ≤ i) ∨ ¬l.Nodup

/-- R155: the limits, saturated at both ends, and the example's value. -/
def Obligations.LimitsAreTheFormulas : Prop :=
  (∀ (p : Params) (c : Cfg),
    (txLimitOf p c).toNat = min (2 ^ 32 - 1) (max 1 (20000 * p.maxFill * p.bytesPerPixel / c.rclk.toNat)) ∧
      (rxLimitOf p c).toNat = min (2 ^ 32 - 1) (max 1 (20000 * p.maxRead / c.rclk.toNat))) ∧
  ∀ (p : Params) (c : Cfg),
    (p.maxFill = 384000 → p.bytesPerPixel = 3 → c.rclk = 10000000#32 → txLimitOf p c = 2304#32) ∧
      (p.maxFill * p.bytesPerPixel = 1 → c.rclk = 4000000000#32 → txLimitOf p c = 1#32)

/-- R167: a write of CFG_CTRL with bit 0 = 0 has no effect. -/
def Obligations.CfgCtrlNopHasNoEffect : Prop :=
  (Encodes 0x101000000000#48 0xFFFF00000001#48 fun _ => .wCfgCtrlNop) ∧ ∀ s : State, exec .wCfgCtrlNop s = .next s

/-- R158: PINCTL is stored; a changed level is driven and emitted once the pins are driven, RST before BL. -/
def Obligations.PinctlDrivesChangedLines : Prop :=
  (Encodes 0x102000000000#48 0xFFFF00000000#48 fun d => .wPinctl (bitAt d 0) (bitAt d 1)) ∧
  ∀ (s : State) (rst bl : Bool),
    exec (.wPinctl rst bl) s = .next
      { s with
        pinctl := ⟨rst, bl⟩
        pins :=
          { s.pins with
            rst := if s.pins.driven = true ∧ rst ≠ s.pinctl.rst then rst else s.pins.rst
            bl := if s.pins.driven = true ∧ pinBl s.cfg ≠ 0xFF#8 ∧ bl ≠ s.pinctl.bl then bl else s.pins.bl }
        trace :=
          s.trace ++ (if s.pins.driven = true ∧ rst ≠ s.pinctl.rst then [.rst rst] else []) ++
            if s.pins.driven = true ∧ pinBl s.cfg ≠ 0xFF#8 ∧ bl ≠ s.pinctl.bl then [.bl bl] else [] }

/-! ## Reads -/

/-- R152, R157, R159, R161, R163 to R166, R183 to R186: the reads of 41_config and 42_engines other than RXQ_CDR. -/
def Obligations.ConfigAndEngineReadsReturnTheirRegister : Prop :=
  ReadsAs 0x000000000000#48 .rCfgPins (fun s => s.cfg.pins.toNat) ∧
  ReadsAs 0x000400000000#48 .rCfgPins2 (fun s => s.cfg.pins2.toNat) ∧
  ReadsAs 0x000800000000#48 .rCfgWclk (fun s => s.cfg.wclk.toNat) ∧
  ReadsAs 0x000C00000000#48 .rCfgRclk (fun s => s.cfg.rclk.toNat) ∧
  ReadsAs 0x001400000000#48 .rCfgStatus (fun s => errNumber s.cfg.err * 2 ^ 8 + s.cfg.configured.toNat) ∧
  ReadsAs 0x001800000000#48 .rTxLimit (fun s => s.cfg.txLimit.toNat) ∧
  ReadsAs 0x001C00000000#48 .rRxLimit (fun s => s.cfg.rxLimit.toNat) ∧
  ReadsAs 0x002000000000#48 .rPinctl (fun s => s.pinctl.bl.toNat * 2 + s.pinctl.rst.toNat) ∧
  ReadsAs 0x004000000000#48 .rEngEnable (fun s => s.eng.enable.toNat) ∧
  ReadsAs 0x004400000000#48 .rEngIdle (fun s =>
    (if s.eng.txqCw.length = 0 then 1 else 0) + (if s.eng.txqDwb.length = 0 then 2 else 0) +
      (if s.eng.txqDwt.length = 0 then 4 else 0) +
        if s.eng.txqCdr.length = 0 ∧ s.eng.phase = .count then 8 else 0) ∧
  (decode (.access 0x004C00000000#48) = .ok .rTxLevel ∧ decode (.access 0x005000000000#48) = .ok .rRxLevel ∧
    ∀ s : State, s.params.ok = true → QueueInv s →
      (∃ v : Word, v.toNat = s.eng.txqCw.length + s.eng.txqDwb.length * 2 ^ 8 + s.eng.txqDwt.length * 2 ^ 16
          + s.eng.txqCdr.length * 2 ^ 24 ∧
        exec .rTxLevel s = .next { s with host.reads := s.host.reads ++ [v] }) ∧
      ∃ v : Word, v.toNat = s.eng.rxq.length ∧ exec .rRxLevel s = .next { s with host.reads := s.host.reads ++ [v] })

/-- R232, R235, R238, R242, R277, R279, R281, R283, R285, R287, R289, R291: the reads of the DMA and of the encoder's
operands.  SIZE reads as the binary logarithm of the bytes of a unit, QSEL as the engine's index or 4 for RXQ (R49). -/
def Obligations.DmaAndOperandReadsReturnTheirRegister : Prop :=
  ReadsAs 0x008000000000#48 .rDmaAddr (fun s => s.dma.addr.toNat) ∧
  ReadsAs 0x008400000000#48 .rDmaCount (fun s => s.dma.count.toNat) ∧
  ReadsAs 0x008800000000#48 .rDmaCtrl (fun s =>
    s.dma.busy.toNat + Nat.log2 (sizeBytes s.dma.size) * 2 + s.dma.incr.toNat * 2 ^ 3
      + (match s.dma.qsel with | .tx e => engineIndex e | .rx => 4) * 2 ^ 4
      + errNumber s.dma.err * 2 ^ 8) ∧
  ReadsAs 0x008C00000000#48 .rDmaAbort (fun s => s.dma.abortPending.toNat) ∧
  ReadsAs 0x00C000000000#48 .rEncSrc (fun s => s.enc.src.toNat) ∧
  ReadsAs 0x00C400000000#48 .rEncDst (fun s => s.enc.dst.toNat) ∧
  ReadsAs 0x00C800000000#48 .rEncCount (fun s => s.enc.count.toNat) ∧
  ReadsAs 0x00CC00000000#48 .rEncPal (fun s => s.enc.pal.toNat) ∧
  ReadsAs 0x00D000000000#48 .rEncPalLen (fun s => s.enc.palLen.toNat) ∧
  ReadsAs 0x00D400000000#48 .rEncFg (fun s => s.enc.fg.toNat) ∧
  ReadsAs 0x00D800000000#48 .rEncBg (fun s => s.enc.bg.toNat) ∧
  ReadsAs 0x00DC00000000#48 .rEncDim (fun s => s.enc.dim.toNat)

/-- R273, R274, R324, R326, R328, R330, R332: the reads of the encoder's control and of the window registers. -/
def Obligations.ControlAndWindowReadsReturnTheirRegister : Prop :=
  ReadsAs 0x00E000000000#48 .rEncCtrl (fun s =>
    s.enc.op.toNat + s.enc.bpp.toNat * 2 ^ 4 + s.enc.mode.toNat * 2 ^ 8 + s.enc.tdir.toNat * 2 ^ 10) ∧
  ReadsAs 0x00E400000000#48 .rEncStatus (fun s => errNumber s.enc.err) ∧
  ReadsAs 0x010000000000#48 .rWinX (fun s => s.win.x.toNat) ∧
  ReadsAs 0x010400000000#48 .rWinY (fun s => s.win.y.toNat) ∧
  ReadsAs 0x010800000000#48 .rWinCtrl (fun s =>
    s.win.orient.toNat + if s.win.pending = [] then 0 else 2 ^ 30) ∧
  ReadsAs 0x010C00000000#48 .rWinCmd (fun s => s.win.cmd.toNat) ∧
  ReadsAs 0x011000000000#48 .rWinStatus (fun s => errNumber s.win.err)

/-! ## 42_engines -/

/-- R181, R182, R199: ENG_ENABLE, case by case: NotConfigured, BusContention, and the new enable set, with the CDR's early
termination where the write deactivates it. -/
def Obligations.EnableKeepsOneEngineActive : Prop :=
  (Encodes 0x104000000000#48 0xFFFF00000000#48 fun d => .wEngEnable (slice d 0 4)) ∧
  ∀ (s : State) (en : BitVec 4),
    (en ≠ 0#4 → s.cfg.configured = false → exec (.wEngEnable en) s = .next (s.raise .notConfigured)) ∧
    ((en = 0#4 ∨ s.cfg.configured = true) →
      (en ∉ [0#4, 1#4, 2#4, 4#4, 8#4] → exec (.wEngEnable en) s = .next (s.raise .busContention)) ∧
      (en ∈ [0#4, 1#4, 2#4, 4#4, 8#4] →
        (s.eng.enable ≠ 0#4 → en ≠ 0#4 → en ≠ s.eng.enable →
          exec (.wEngEnable en) s = .next (s.raise .busContention)) ∧
        (s.eng.enable = 0#4 ∨ en = 0#4 ∨ en = s.eng.enable →
          (s.eng.enable ≠ 8#4 ∨ en = 8#4 ∨ s.eng.phase = .count →
            exec (.wEngEnable en) s = .next { s with eng.enable := en }) ∧
          (s.eng.enable = 8#4 → en ≠ 8#4 → ∀ n, s.eng.phase = .cmd n →
            exec (.wEngEnable en) s = .next { s with eng := { s.eng with enable := en, phase := .count } }) ∧
          (s.eng.enable = 8#4 → en ≠ 8#4 → ∀ k f, s.eng.phase = .read k f →
            exec (.wEngEnable en) s = .next
              { s with
                eng := { s.eng with enable := en, phase := .count }
                pins.dataDir := .out
                trace := s.trace ++ [.dirOut] }))))

/-- R187: ENG_CLEAR, case by case: ClearActive, then QueueConflict, else the queues of the selected engines are empty. -/
def Obligations.ClearEmptiesSelectedQueues : Prop :=
  (Encodes 0x104800000000#48 0xFFFF00000000#48 fun d => .wEngClear (slice d 0 4)) ∧
  ∀ (s : State) (sel : BitVec 4),
    let busy : Engine → Prop := fun e =>
      (s.dma.busy = true ∧ (s.dma.qsel = .tx e ∨ (e = .cdr ∧ s.dma.qsel = .rx))) ∨ (e = .cw ∧ s.win.pending ≠ [])
    ((∃ e, bitAt sel (engineIndex e) = true ∧ bitAt s.eng.enable (engineIndex e) = true) →
      exec (.wEngClear sel) s = .next (s.raise .clearActive)) ∧
    ((∀ e, bitAt sel (engineIndex e) = true → bitAt s.eng.enable (engineIndex e) = false) →
      ((∃ e, bitAt sel (engineIndex e) = true ∧ busy e) →
        exec (.wEngClear sel) s = .next (s.raise .queueConflict)) ∧
      ((∀ e, bitAt sel (engineIndex e) = true → ¬busy e) →
        exec (.wEngClear sel) s = .next
          { s with
            eng :=
              { s.eng with
                txqCw := if bitAt sel 0 then [] else s.eng.txqCw
                txqDwb := if bitAt sel 1 then [] else s.eng.txqDwb
                txqDwt := if bitAt sel 2 then [] else s.eng.txqDwt
                txqCdr := if bitAt sel 3 then [] else s.eng.txqCdr
                rxq := if bitAt sel 3 then [] else s.eng.rxq
                phase := if bitAt sel 3 then .count else s.eng.phase } }))

/-- R188, R200, R201, R202: the four pushes, case by case: QueueConflict where another feeder owns the queue, else the hold
while it is full, else the word at the tail. -/
def Obligations.PushesEnterTheirQueue : Prop :=
  (Encodes 0x106000000000#48 0xFFFF00000000#48 .wTxqCw) ∧ (Encodes 0x106400000000#48 0xFFFF00000000#48 .wTxqDwb) ∧
  (Encodes 0x106800000000#48 0xFFFF00000000#48 .wTxqDwt) ∧ (Encodes 0x106C00000000#48 0xFFFF00000000#48 .wTxqCdr) ∧
  ∀ p ∈ [(Engine.cw, Instr.wTxqCw), (.dwb, .wTxqDwb), (.dwt, .wTxqDwt), (.cdr, .wTxqCdr)], ∀ (s : State) (w : Word),
    let owned := (s.dma.busy = true ∧ s.dma.qsel = .tx p.1) ∨ (p.1 = .cw ∧ s.win.pending ≠ [])
    (owned → exec (p.2 w) s = .next (s.raise .queueConflict)) ∧
    (¬owned → s.params.qDepth ≤ (s.txq p.1).length → exec (p.2 w) s = .next { s with host.held := some .pushFull }) ∧
    (¬owned → (s.txq p.1).length < s.params.qDepth → exec (p.2 w) s = .next (s.setTxq p.1 (s.txq p.1 ++ [w])))

/-- R189: the pop of RXQ, case by case: QueueConflict while the DMA drains it, the hold while it is empty, else the oldest
byte. -/
def Obligations.PopReturnsTheOldestByte : Prop :=
  decode (.access 0x007000000000#48) = .ok .rRxqCdr ∧
  ∀ s : State,
    (s.dma.busy = true → s.dma.qsel = .rx → exec .rRxqCdr s = .next (s.raise .queueConflict)) ∧
    (¬(s.dma.busy = true ∧ s.dma.qsel = .rx) →
      (s.eng.rxq = [] → exec .rRxqCdr s = .next { s with host.held := some .popEmpty }) ∧
      ∀ b rest, s.eng.rxq = b :: rest →
        exec .rRxqCdr s = .next { s with eng.rxq := rest, host.reads := s.host.reads ++ [b.zeroExtend 32] })

/-- R192, R193, R194 (with R190): a unit of a write engine: one or three write cycles, the unit gone from its queue. -/
def Obligations.WriteUnitsBecomeWriteCycles : Prop :=
  ∀ (s : State) (w : Word) (rest : List Word),
    (bitAt s.eng.enable 0 = true → s.eng.txqCw = w :: rest → ∀ dc d,
      exec (.qunitCw dc d) s = .next
        { s with
          eng.txqCw := rest
          pins := { s.pins with d := d, dc := dc, wr := true }
          trace := s.trace ++ [.w dc d] }) ∧
    (bitAt s.eng.enable 1 = true → s.eng.txqDwb = w :: rest → ∀ d,
      exec (.qunitDwb d) s = .next
        { s with
          eng.txqDwb := rest
          pins := { s.pins with d := d, dc := true, wr := true }
          trace := s.trace ++ [.w true d] }) ∧
    (bitAt s.eng.enable 2 = true → s.eng.txqDwt = w :: rest → ∀ a b c,
      exec (.qunitDwt a b c) s = .next
        { s with
          eng.txqDwt := rest
          pins := { s.pins with d := c, dc := true, wr := true }
          trace := s.trace ++ [.w true a, .w true b, .w true c] })

/-- R195, R196, R197 (with R190, R191): the CDR's count, command and read strobe. -/
def Obligations.CdrUnitsRunTheReadTransaction : Prop :=
  ∀ s : State, bitAt s.eng.enable 3 = true →
    (∀ w rest n, s.eng.txqCdr = w :: rest → s.eng.phase = .count →
      exec (.qunitCdrCount n) s = .next { s with eng := { s.eng with txqCdr := rest, phase := .cmd n } }) ∧
    (∀ w rest n d, s.eng.txqCdr = w :: rest → s.eng.phase = .cmd n →
      exec (.qunitCdrCmd d) s = .next
        { s with
          eng := { s.eng with txqCdr := rest, phase := .read n true }
          pins := { s.pins with d := d, dc := false, wr := true, dataDir := .inp }
          trace := s.trace ++ [.w false d, .dirIn] }) ∧
    (∀ k first d, s.eng.phase = .read k first → k ≠ 0#16 → s.eng.rxq.length < s.params.qDepth →
      exec (.qunitRx d) s = .next
        { s with
          eng := { s.eng with rxq := s.eng.rxq ++ [d], phase := .read (k - 1#16) false }
          pins := { s.pins with dc := true, rd := true }
          trace := s.trace ++ (if first then [.settle] else []) ++ [.rd d] })

/-- R198: with no strobe left the CDR's step restores the data lane. -/
def Obligations.CdrRestoresTheDataLane : Prop :=
  ∀ (s : State) (f : Bool), s.faults = [] → s.refused = none → s.nextTurn = .engine .cdr →
    bitAt s.eng.enable 3 = true → s.eng.phase = .read 0#16 f →
    step s = .next
      { s.tick with eng.phase := .count, pins.dataDir := .out, trace := s.trace ++ [.dirOut] }

/-! ## 43_dma -/

/-- R236, R239: the DMA's unit step, into an engine's queue and out of RXQ, with completion at the last unit. -/
def Obligations.DmaUnitStepMovesOneUnit : Prop :=
  ∀ s : State, s.faults = [] → s.refused = none → s.nextTurn = .dmaUnit → s.dma.busy = true → s.dma.count ≠ 0#32 →
    (s.dma.abortPending = false ∨ s.dma.grace = true) →
    let moved : Dma :=
      { s.dma with
        count := s.dma.count - 1#32
        addr := if s.dma.incr then s.dma.addr + BitVec.ofNat 32 (sizeBytes s.dma.size) else s.dma.addr
        grace := false }
    let after : Dma := if s.dma.count = 1#32 then { moved with busy := false, abortPending := false } else moved
    (∀ e, s.dma.qsel = .tx e → (s.txq e).length < s.params.qDepth →
      step s = .next
        { (s.tick.setTxq e (s.txq e ++ [s.mem.readLE s.dma.addr (sizeBytes s.dma.size)])) with dma := after }) ∧
    (∀ b rest, s.dma.qsel = .rx → s.eng.rxq = b :: rest →
      step s = .next
        { s.tick with mem := s.mem.write s.dma.addr.toNat b, eng.rxq := rest, dma := after })

/-- R241: the abort acknowledgement frees the channel and keeps the counters. -/
def Obligations.DmaAckStepStopsTheChannel : Prop :=
  ∀ s : State, s.faults = [] → s.refused = none → s.nextTurn = .dmaAck → s.dma.abortPending = true →
    step s = .next { s.tick with dma := { s.dma with busy := false, abortPending := false, grace := false } }

/-- R231, R237, R234: the descriptor writes, case by case. -/
def Obligations.DescriptorWritesStoreWhileIdle : Prop :=
  (Encodes 0x108000000000#48 0xFFFF00000000#48 .wDmaAddr) ∧ (Encodes 0x108400000000#48 0xFFFF00000000#48 .wDmaCount) ∧
  (Encodes 0x108800000000#48 0xFFFF00000001#48 fun d => .wDmaCtrlSet (slice d 1 2) (bitAt d 3) (slice d 4 3)) ∧
  ∀ (s : State) (d : Word) (size : BitVec 2) (incr : Bool) (qsel : BitVec 3),
    let reserved := size = 3#2 ∨ 5 ≤ qsel.toNat ∨ (qsel = 4#3 ∧ size ≠ 0#2)
    (s.dma.busy = true → ∀ i ∈ [Instr.wDmaAddr d, .wDmaCount d, .wDmaCtrlSet size incr qsel],
      exec i s = .next (s.raise .dmaBusy)) ∧
    (s.dma.busy = false →
      exec (.wDmaAddr d) s = .next { s with dma.addr := d } ∧
      exec (.wDmaCount d) s = .next { s with dma.count := d } ∧
      (reserved → exec (.wDmaCtrlSet size incr qsel) s = .next (s.raise .reservedValue)) ∧
      (¬reserved → ∃ sz q, sizeBytes sz = 2 ^ size.toNat ∧ (∀ e, q = .tx e ↔ qsel.toNat = engineIndex e) ∧
        (q = .rx ↔ qsel = 4#3) ∧
        exec (.wDmaCtrlSet size incr qsel) s = .next { s with dma := { s.dma with size := sz, incr := incr, qsel := q } }))

/-- R233, R245: a submission, case by case in the order of its checks. -/
def Obligations.SubmitStartsTheTransfer : Prop :=
  (Encodes 0x108800000001#48 0xFFFF00000001#48 fun d => .wDmaCtrlSubmit (slice d 1 2) (bitAt d 3) (slice d 4 3)) ∧
  ∀ (s : State) (size : BitVec 2) (incr : Bool) (qsel : BitVec 3),
    let reserved := size = 3#2 ∨ 5 ≤ qsel.toNat ∨ (qsel = 4#3 ∧ size ≠ 0#2)
    let go := exec (.wDmaCtrlSubmit size incr qsel) s
    (s.dma.busy = true → go = .next (s.raise .dmaBusy)) ∧
    (s.dma.busy = false → reserved → go = .next (s.raise .reservedValue)) ∧
    (s.dma.busy = false → ¬reserved → s.cfg.configured = false → go = .next (s.raise .notConfigured)) ∧
    (s.dma.busy = false → ¬reserved → s.cfg.configured = true →
      (qsel = 0#3 → s.win.pending ≠ [] → go = .next (s.raise .queueConflict)) ∧
      (qsel ≠ 0#3 ∨ s.win.pending = [] →
        ∃ sz q, sizeBytes sz = 2 ^ size.toNat ∧ (∀ e, q = .tx e ↔ qsel.toNat = engineIndex e) ∧ (q = .rx ↔ qsel = 4#3) ∧
          let d : Dma := { s.dma with size := sz, incr := incr, qsel := q }
          let len := if incr then s.dma.count.toNat * sizeBytes sz else sizeBytes sz
          (s.dma.count = 0#32 → go = .next { s with dma := { d with err := .ok } }) ∧
          (s.dma.count ≠ 0#32 →
            (s.dma.addr.toNat % sizeBytes sz ≠ 0 ∨ ¬InMemory s.params ⟨s.dma.addr.toNat, len⟩ →
              go = .next { s with dma := { d with err := .addressError } }) ∧
            (s.dma.addr.toNat % sizeBytes sz = 0 → InMemory s.params ⟨s.dma.addr.toNat, len⟩ →
              go = .next
                { s with
                  dma :=
                    { d with
                      lo := s.dma.addr.toNat, hi := s.dma.addr.toNat + len, err := .ok, busy := true
                      abortPending := false, grace := false } }))))

/-- R240: an abort request marks a busy channel once; any other write of DMA_ABORT does nothing. -/
def Obligations.AbortRequestMarksABusyChannel : Prop :=
  (Encodes 0x108C00000000#48 0xFFFF00000000#48 fun d => .wDmaAbort (bitAt d 0)) ∧
  ∀ (s : State) (a : Bool),
    (a = true → s.dma.busy = true → s.dma.abortPending = false →
      exec (.wDmaAbort a) s = .next { s with dma := { s.dma with abortPending := true, grace := true } }) ∧
    (a = false ∨ s.dma.busy = false ∨ s.dma.abortPending = true → exec (.wDmaAbort a) s = .next s)

/-- R241: while an abort is pending every step of any agent keeps the count, but for one unit that uses up the grace; and
the grace never comes back. -/
def Obligations.AbortedChannelMovesAtMostOneUnit : Prop :=
  ∀ s t : State, DmaInv s → s.dma.abortPending = true → step s = .next t →
    (t.dma.count = s.dma.count ∧ (t.dma.grace = true → s.dma.grace = true)) ∨
      (s.dma.grace = true ∧ t.dma.count = s.dma.count - 1#32 ∧ t.dma.grace = false)

/-- R457, R241, R363: in a weakly fair run a pending abort is acknowledged. -/
def Obligations.AbortIsAcknowledgedUnderFairness : Prop :=
  ∀ run : Nat → State, IsRun run → WeaklyFair run → ∀ n, (run n).dma.abortPending = true →
    ∃ m, n ≤ m ∧ (run m).dma.abortPending = false

/-! ## 44_pixel_encoding -/

/-- R276, R278, R280, R282, R284, R286, R288, R290, R272: the encoder's operand registers and ENC_CTRL without START store
their fields and nothing else. -/
def Obligations.EncoderRegistersAreLatches : Prop :=
  (Encodes 0x10C000000000#48 0xFFFF00000000#48 .wEncSrc) ∧ (Encodes 0x10C400000000#48 0xFFFF00000000#48 .wEncDst) ∧
  (Encodes 0x10C800000000#48 0xFFFF00000000#48 .wEncCount) ∧ (Encodes 0x10CC00000000#48 0xFFFF00000000#48 .wEncPal) ∧
  (Encodes 0x10D000000000#48 0xFFFF00000000#48 fun d => .wEncPalLen (slice d 0 9)) ∧
  (Encodes 0x10D400000000#48 0xFFFF00000000#48 fun d => .wEncFg (slice d 16 8) (slice d 8 8) (slice d 0 8)) ∧
  (Encodes 0x10D800000000#48 0xFFFF00000000#48 fun d => .wEncBg (slice d 16 8) (slice d 8 8) (slice d 0 8)) ∧
  (Encodes 0x10DC00000000#48 0xFFFF00000000#48 fun d => .wEncDim (slice d 0 16) (slice d 16 16)) ∧
  (Encodes 0x10E000000000#48 0xFFFF80000000#48 fun d =>
    .wEncCtrlSet (slice d 0 4) (slice d 4 4) (slice d 8 2) (bitAt d 10)) ∧
  ∀ (s : State) (d : Word),
    exec (.wEncSrc d) s = .next { s with enc.src := d } ∧
    exec (.wEncDst d) s = .next { s with enc.dst := d } ∧
    exec (.wEncCount d) s = .next { s with enc.count := d } ∧
    exec (.wEncPal d) s = .next { s with enc.pal := d } ∧
    exec (.wEncPalLen (slice d 0 9)) s = .next { s with enc.palLen := slice d 0 9 } ∧
    exec (.wEncFg (slice d 16 8) (slice d 8 8) (slice d 0 8)) s = .next { s with enc.fg := slice d 0 24 } ∧
    exec (.wEncBg (slice d 16 8) (slice d 8 8) (slice d 0 8)) s = .next { s with enc.bg := slice d 0 24 } ∧
    exec (.wEncDim (slice d 0 16) (slice d 16 16)) s = .next { s with enc.dim := d } ∧
    ∀ op bpp mode tdir, exec (.wEncCtrlSet op bpp mode tdir) s = .next
      { s with enc := { s.enc with op := op, bpp := bpp, mode := mode, tdir := tdir } }

/-- R271, R306, R403, R408 (with R83, R90, R305): an encoder START of each OP: the fields are stored, then the format, the
ranges of R306, the ownership and the palette are checked in this order, and only past all four is memory written, in the
destination range alone.  That an empty range shares no byte is the model's reading (log 16), and that an input races only a
transfer out of RXQ is R90's case (d) over the wider wording of R244 (log 27). -/
def Obligations.EncoderStartChecksInOrder : Prop :=
  ∀ (s : State) (bpp : BitVec 4) (mode : BitVec 2) (tdir : Bool),
    let src := s.enc.src.toNat
    let dst := s.enc.dst.toNat
    let n := s.enc.count.toNat
    let len := min s.enc.palLen.toNat 256
    let w := (slice s.enc.dim 0 16).toNat
    let h := (slice s.enc.dim 16 16).toNat
    let cols := w * ((h + 7) / 8)
    let rows := h * ((w + 7) / 8)
    let idx : Nat → Nat := fun k =>
      (s.mem.read (src + k * bpp.toNat / 8)).toNat / 2 ^ (8 - bpp.toNat - k * bpp.toNat % 8) % 2 ^ bpp.toNat
    ∀ p ∈ [((0#4, Instr.wEncCtrlRgb565 bpp mode tdir, [⟨src, 2 * n⟩], ⟨dst, 3 * n⟩) : BitVec 4 × Instr × List Span × Span),
        (1#4, .wEncCtrlIndexed bpp mode tdir, [⟨src, (n * bpp.toNat + 7) / 8⟩, ⟨s.enc.pal.toNat, 4 * len⟩], ⟨dst, 3 * n⟩),
        (2#4, .wEncCtrlGlyph bpp mode tdir, [⟨src, (n + 7) / 8⟩], ⟨dst, 3 * n⟩),
        (3#4, .wEncCtrlBitrev bpp mode tdir, [⟨src, n⟩], ⟨dst, n⟩),
        (4#4, .wEncCtrlTranspose bpp mode tdir, [⟨src, if tdir then rows else cols⟩], ⟨dst, if tdir then cols else rows⟩)],
      let op := p.1
      let go := exec p.2.1 s
      let inputs := p.2.2.1
      let out := p.2.2.2
      let after := encAfter s op bpp mode tdir
      (op = 1#4 ∧ bpp ∉ [1#4, 2#4, 4#4, 8#4] → go = .next { s with enc := after .unsupportedPixelFormat }) ∧
      (op ≠ 1#4 ∨ bpp ∈ [1#4, 2#4, 4#4, 8#4] →
        ((∃ r ∈ out :: inputs, ¬InMemory s.params r) → go = .next { s with enc := after .addressError }) ∧
        ((∀ r ∈ out :: inputs, InMemory s.params r) →
          (EncRaces s inputs out → go = .next (({ s with enc := after s.enc.err } : State).raise .bufferRace)) ∧
          (¬EncRaces s inputs out →
            (op = 1#4 ∧ (∃ k < n, len ≤ idx k) → go = .next { s with enc := after .paletteRange }) ∧
            (op ≠ 1#4 ∨ (∀ k < n, idx k < len) →
              ∃ m : Memory, go = .next { s with mem := m, enc := after .ok } ∧
                ∀ a, a < out.start ∨ out.start + out.len ≤ a → m.read a = s.mem.read a))))

/-- R304: a START with a reserved OP stores the fields, reports UnsupportedPixelFormat, and touches no memory. -/
def Obligations.ReservedOpsReportUnsupportedFormat : Prop :=
  (Encodes 0x10E080000005#48 0xFFFF8000000F#48 fun d => .wEncCtrlReserved1 (slice d 4 4) (slice d 8 2) (bitAt d 10)) ∧
  (Encodes 0x10E080000006#48 0xFFFF8000000E#48 fun d =>
    .wEncCtrlReserved2 (slice d 0 4) (slice d 4 4) (slice d 8 2) (bitAt d 10)) ∧
  (Encodes 0x10E080000008#48 0xFFFF80000008#48 fun d =>
    .wEncCtrlReserved3 (slice d 0 4) (slice d 4 4) (slice d 8 2) (bitAt d 10)) ∧
  ∀ (s : State) (op bpp : BitVec 4) (mode : BitVec 2) (tdir : Bool),
    exec (.wEncCtrlReserved1 bpp mode tdir) s
      = .next { s with enc := encAfter s 5#4 bpp mode tdir .unsupportedPixelFormat } ∧
    exec (.wEncCtrlReserved2 op bpp mode tdir) s
      = .next { s with enc := encAfter s op bpp mode tdir .unsupportedPixelFormat } ∧
    exec (.wEncCtrlReserved3 op bpp mode tdir) s
      = .next { s with enc := encAfter s op bpp mode tdir .unsupportedPixelFormat }

/-- R292, R293: RGB565 expands each pixel to its three bytes; every other byte of memory is unchanged. -/
def Obligations.Rgb565ExpandsEachPixel : Prop :=
  (Encodes 0x10E080000000#48 0xFFFF8000000F#48 fun d => .wEncCtrlRgb565 (slice d 4 4) (slice d 8 2) (bitAt d 10)) ∧
  ∀ (s : State) (bpp : BitVec 4) (mode : BitVec 2) (tdir : Bool),
    let src := s.enc.src.toNat
    let dst := s.enc.dst.toNat
    let n := s.enc.count.toNat
    EncAdmits s [⟨src, 2 * n⟩] ⟨dst, 3 * n⟩ →
      ∃ m : Memory,
        exec (.wEncCtrlRgb565 bpp mode tdir) s = .next { s with mem := m, enc := encAfter s 0#4 bpp mode tdir .ok } ∧
        (∀ k < n,
          let b0 := s.mem.read (src + 2 * k)
          let b1 := s.mem.read (src + 2 * k + 1)
          m.read (dst + 3 * k) = b0 &&& 0xF8#8 ∧
          m.read (dst + 3 * k + 1) = ((b0 &&& 0x07#8) <<< 5) ||| ((b1 >>> 3) &&& 0x1C#8) ∧
          m.read (dst + 3 * k + 2) = b1 <<< 3) ∧
        ∀ a, a < dst ∨ dst + 3 * n ≤ a → m.read a = s.mem.read a

/-- R295, R296: INDEXED looks each index up in the palette; a BPP it does not implement, and an index past the palette's
length, are reported, and then memory is unchanged. -/
def Obligations.IndexedLooksUpThePalette : Prop :=
  (Encodes 0x10E080000001#48 0xFFFF8000000F#48 fun d => .wEncCtrlIndexed (slice d 4 4) (slice d 8 2) (bitAt d 10)) ∧
  ∀ (s : State) (bpp : BitVec 4) (mode : BitVec 2) (tdir : Bool),
    let src := s.enc.src.toNat
    let dst := s.enc.dst.toNat
    let pal := s.enc.pal.toNat
    let n := s.enc.count.toNat
    let len := min s.enc.palLen.toNat 256
    let bits := bpp.toNat
    let idx : Nat → Nat := fun k =>
      (s.mem.read (src + k * bits / 8)).toNat / 2 ^ (8 - bits - k * bits % 8) % 2 ^ bits
    (bpp ∉ [1#4, 2#4, 4#4, 8#4] →
      exec (.wEncCtrlIndexed bpp mode tdir) s
        = .next { s with enc := encAfter s 1#4 bpp mode tdir .unsupportedPixelFormat }) ∧
    (bpp ∈ [1#4, 2#4, 4#4, 8#4] → EncAdmits s [⟨src, (n * bits + 7) / 8⟩, ⟨pal, 4 * len⟩] ⟨dst, 3 * n⟩ →
      ((∃ k < n, len ≤ idx k) →
        exec (.wEncCtrlIndexed bpp mode tdir) s = .next { s with enc := encAfter s 1#4 bpp mode tdir .paletteRange }) ∧
      ((∀ k < n, idx k < len) →
        ∃ m : Memory,
          exec (.wEncCtrlIndexed bpp mode tdir) s = .next { s with mem := m, enc := encAfter s 1#4 bpp mode tdir .ok } ∧
          (∀ k < n,
            m.read (dst + 3 * k) = s.mem.read (pal + 4 * idx k + 2) ∧
            m.read (dst + 3 * k + 1) = s.mem.read (pal + 4 * idx k + 1) ∧
            m.read (dst + 3 * k + 2) = s.mem.read (pal + 4 * idx k)) ∧
          ∀ a, a < dst ∨ dst + 3 * n ≤ a → m.read a = s.mem.read a))

/-- R297, R298: GLYPH writes the foreground where the bitmap has a 1, and elsewhere what MODE says. -/
def Obligations.GlyphAppliesItsMode : Prop :=
  (Encodes 0x10E080000002#48 0xFFFF8000000F#48 fun d => .wEncCtrlGlyph (slice d 4 4) (slice d 8 2) (bitAt d 10)) ∧
  ∀ (s : State) (bpp : BitVec 4) (mode : BitVec 2) (tdir : Bool),
    let src := s.enc.src.toNat
    let dst := s.enc.dst.toNat
    let n := s.enc.count.toNat
    EncAdmits s [⟨src, (n + 7) / 8⟩] ⟨dst, 3 * n⟩ →
      ∃ m : Memory,
        exec (.wEncCtrlGlyph bpp mode tdir) s = .next { s with mem := m, enc := encAfter s 2#4 bpp mode tdir .ok } ∧
        (∀ k < n, ∀ j < 3,
          let old := s.mem.read (dst + 3 * k + j)
          m.read (dst + 3 * k + j) =
            if bitAt (s.mem.read (src + k / 8)) (7 - k % 8) then slice s.enc.fg (16 - 8 * j) 8
            else if mode = 1#2 then old >>> 1
            else if mode = 2#2 then old
            else slice s.enc.bg (16 - 8 * j) 8) ∧
        ∀ a, a < dst ∨ dst + 3 * n ≤ a → m.read a = s.mem.read a

/-- R299, R300: BITREV writes each source byte with its bits reversed. -/
def Obligations.BitrevReversesEachByte : Prop :=
  (Encodes 0x10E080000003#48 0xFFFF8000000F#48 fun d => .wEncCtrlBitrev (slice d 4 4) (slice d 8 2) (bitAt d 10)) ∧
  ∀ (s : State) (bpp : BitVec 4) (mode : BitVec 2) (tdir : Bool),
    let src := s.enc.src.toNat
    let dst := s.enc.dst.toNat
    let n := s.enc.count.toNat
    EncAdmits s [⟨src, n⟩] ⟨dst, n⟩ →
      ∃ m : Memory,
        exec (.wEncCtrlBitrev bpp mode tdir) s = .next { s with mem := m, enc := encAfter s 3#4 bpp mode tdir .ok } ∧
        (∀ i < n, ∀ b < 8, bitAt (m.read (dst + i)) b = bitAt (s.mem.read (src + i)) (7 - b)) ∧
        ∀ a, a < dst ∨ dst + n ≤ a → m.read a = s.mem.read a

/-- R301, R302: TRANSPOSE turns one packed layout into the other, with 0 in the padding bits. -/
def Obligations.TransposeTurnsTheLayout : Prop :=
  (Encodes 0x10E080000004#48 0xFFFF8000000F#48 fun d => .wEncCtrlTranspose (slice d 4 4) (slice d 8 2) (bitAt d 10)) ∧
  ∀ (s : State) (bpp : BitVec 4) (mode : BitVec 2),
    let src := s.enc.src.toNat
    let dst := s.enc.dst.toNat
    let w := (slice s.enc.dim 0 16).toNat
    let h := (slice s.enc.dim 16 16).toNat
    let wb := (w + 7) / 8
    let hb := (h + 7) / 8
    let row : Memory → Nat → Nat → Nat → Bool := fun m a x y => bitAt (m.read (a + (y * wb + x / 8))) (7 - x % 8)
    let col : Memory → Nat → Nat → Nat → Bool := fun m a x y => bitAt (m.read (a + (x * hb + y / 8))) (7 - y % 8)
    (EncAdmits s [⟨src, w * hb⟩] ⟨dst, h * wb⟩ →
      ∃ m : Memory,
        exec (.wEncCtrlTranspose bpp mode false) s
          = .next { s with mem := m, enc := encAfter s 4#4 bpp mode false .ok } ∧
        (∀ x < w, ∀ y < h, row m dst x y = col s.mem src x y) ∧
        (∀ x < 8 * wb, w ≤ x → ∀ y < h, row m dst x y = false) ∧
        ∀ a, a < dst ∨ dst + h * wb ≤ a → m.read a = s.mem.read a) ∧
    (EncAdmits s [⟨src, h * wb⟩] ⟨dst, w * hb⟩ →
      ∃ m : Memory,
        exec (.wEncCtrlTranspose bpp mode true) s
          = .next { s with mem := m, enc := encAfter s 4#4 bpp mode true .ok } ∧
        (∀ x < w, ∀ y < h, col m dst x y = row s.mem src x y) ∧
        (∀ y < 8 * hb, h ≤ y → ∀ x < w, col m dst x y = false) ∧
        ∀ a, a < dst ∨ dst + w * hb ≤ a → m.read a = s.mem.read a)

/-- R303: after a TRANSPOSE with TDIR = 0 the bit stream a GLYPH of one row reads is that row of the bitmap, and when W is
a multiple of 8 the stream of the whole bitmap is its rows in order. -/
def Obligations.TransposedRowsAreGlyphStreams : Prop :=
  ∀ (s t : State) (bpp : BitVec 4) (mode : BitVec 2),
    let src := s.enc.src.toNat
    let dst := s.enc.dst.toNat
    let w := (slice s.enc.dim 0 16).toNat
    let h := (slice s.enc.dim 16 16).toNat
    EncAdmits s [⟨src, w * ((h + 7) / 8)⟩] ⟨dst, h * ((w + 7) / 8)⟩ →
    exec (.wEncCtrlTranspose bpp mode false) s = .next t →
    ∀ x < w, ∀ y < h,
      glyphBit t.mem (dst + y * ((w + 7) / 8)) x = pixColumn s.mem src ((h + 7) / 8) x y ∧
        (w % 8 = 0 → glyphBit t.mem dst (y * w + x) = pixColumn s.mem src ((h + 7) / 8) x y)

/-- R294: expanding a packed colour truncates its channels, and packing an expanded pixel gives its two bytes back. -/
def Obligations.PackAndExpandRoundTrip : Prop :=
  (∀ r g b : Byte,
    rgb565 (pack565 ⟨r, g, b⟩).1 (pack565 ⟨r, g, b⟩).2 = ⟨r &&& 0xF8#8, g &&& 0xFC#8, b &&& 0xF8#8⟩) ∧
  (∀ r g b : Byte,
    pack565 ⟨r, g, b⟩ = ((r &&& 0xF8#8) ||| (g >>> 5), ((g <<< 3) &&& 0xE0#8) ||| (b >>> 3))) ∧
  ∀ b0 b1 : Byte, pack565 (rgb565 b0 b1) = (b0, b1)

/-! ## 45_window -/

/-- R323, R325, R327, R329: the window registers store their fields while no window is pending. -/
def Obligations.WindowRegistersStoreWhileIdle : Prop :=
  (Encodes 0x110000000000#48 0xFFFF00000000#48 fun d => .wWinX (slice d 0 16) (slice d 16 16)) ∧
  (Encodes 0x110400000000#48 0xFFFF00000000#48 fun d => .wWinY (slice d 0 16) (slice d 16 16)) ∧
  (Encodes 0x110C00000000#48 0xFFFF00000000#48 fun d => .wWinCmd (slice d 0 8) (slice d 8 8) (slice d 16 8)) ∧
  (Encodes 0x110800000000#48 0xFFFF80000000#48 fun d => .wWinCtrlSet (bitAt d 0)) ∧
  (∀ (s : State) (d : Word) (o : Bool), s.win.pending = [] →
    exec (.wWinX (slice d 0 16) (slice d 16 16)) s = .next { s with win.x := d } ∧
    exec (.wWinY (slice d 0 16) (slice d 16 16)) s = .next { s with win.y := d } ∧
    exec (.wWinCmd (slice d 0 8) (slice d 8 8) (slice d 16 8)) s = .next { s with win.cmd := slice d 0 24 } ∧
    exec (.wWinCtrlSet o) s = .next { s with win.orient := o }) ∧
  ∀ (s : State) (a b : BitVec 16) (c d e : Byte) (o : Bool), s.win.pending ≠ [] →
    ∀ i ∈ [Instr.wWinX a b, .wWinY a b, .wWinCmd c d e, .wWinCtrlSet o], exec i s = .next (s.raise .windowBusy)

/-- R321, R322, R335: a START, case by case in the order of its checks; a valid one leaves the 11 units pending. -/
def Obligations.WindowStartQueuesItsUnits : Prop :=
  (Encodes 0x110880000000#48 0xFFFF80000000#48 fun d => .wWinCtrlStart (bitAt d 0)) ∧
  ∀ (s : State) (o : Bool),
    let x1 := slice s.win.x 0 16
    let x2 := slice s.win.x 16 16
    let y1 := slice s.win.y 0 16
    let y2 := slice s.win.y 16 16
    let c1 := if o then y1 else x1
    let c2 := if o then y2 else x2
    let p1 := if o then x1 else y1
    let p2 := if o then x2 else y2
    let data : Byte → BitVec 9 := fun b => 0x100#9 ||| b.zeroExtend 9
    let cmd : Byte → BitVec 9 := fun b => b.zeroExtend 9
    (s.win.pending ≠ [] → exec (.wWinCtrlStart o) s = .next (s.raise .windowBusy)) ∧
    (s.win.pending = [] →
      (s.dma.busy = true → s.dma.qsel = .tx .cw →
        exec (.wWinCtrlStart o) s = .next (({ s with win.orient := o } : State).raise .queueConflict)) ∧
      (¬(s.dma.busy = true ∧ s.dma.qsel = .tx .cw) →
        (x2 < x1 ∨ y2 < y1 →
          exec (.wWinCtrlStart o) s = .next { s with win := { s.win with orient := o, err := .invalidWindow } }) ∧
        (x1 ≤ x2 → y1 ≤ y2 →
          exec (.wWinCtrlStart o) s = .next
            { s with
              win :=
                { s.win with
                  orient := o
                  err := .ok
                  pending :=
                    [cmd (slice s.win.cmd 0 8),
                      data (slice c1 8 8), data (slice c1 0 8), data (slice c2 8 8), data (slice c2 0 8),
                      cmd (slice s.win.cmd 8 8),
                      data (slice p1 8 8), data (slice p1 0 8), data (slice p2 8 8), data (slice p2 0 8),
                      cmd (slice s.win.cmd 16 8)] } })))

/-- R333: the sequencer moves the next unit into TXQ[0] while there is room. -/
def Obligations.WindowStepPushesTheNextUnit : Prop :=
  ∀ (s : State) (u : BitVec 9) (rest : List (BitVec 9)), s.faults = [] → s.refused = none → s.nextTurn = .window →
    s.win.pending = u :: rest → s.eng.txqCw.length < s.params.qDepth →
    step s = .next { s.tick with win.pending := rest, eng.txqCw := s.eng.txqCw ++ [u.zeroExtend 32] }

/-- R92, R192, R333: with CW active and no DMA transfer into its queue, no step of a block agent adds, drops or reorders
what the bus has carried and will carry from TXQ[0] and the pending units. -/
def Obligations.CommandUnitsReachTheBusInOrder : Prop :=
  ∀ s t : State, step s = .next t → s.nextTurn ≠ .host → s.eng.enable = 1#4 →
    ¬(s.dma.busy = true ∧ s.dma.qsel = .tx .cw) → cwOutlook t = cwOutlook s

/-- R331, R333, R192: with CW active and its queue empty, the pending units of a window are on the bus, in order and with
nothing between them, after as many turns of the sequencer and of CW as there are units. -/
def Obligations.PendingWindowIsSentInOrder : Prop :=
  ∀ (s : State) (us : List (BitVec 9)) (rest : List Turn), s.faults = [] → s.refused = none → s.eng.enable = 1#4 →
    1 ≤ s.params.qDepth → s.eng.txqCw = [] → s.win.pending = us →
    s.world.sched = (List.replicate us.length [Turn.window, Turn.engine .cw]).flatten ++ rest →
    ∃ t, runSteps (2 * us.length) s = .next t ∧ t.trace = s.trace ++ us.map unitEvent ∧ t.win.pending = [] ∧
      t.eng.txqCw = []

/-- R194, R236, R239, R358: a 32-bit transfer with a fixed source into an active DWT sends the same pixel once per unit and
ends idle, when the DMA and the engine take turns. -/
def Obligations.FillRepeatsItsPixel : Prop :=
  ∀ (s : State) (n : Nat) (rest : List Turn), s.faults = [] → s.refused = none → s.eng.enable = 4#4 →
    1 ≤ s.params.qDepth → s.eng.txqDwt = [] → s.dma.busy = true → s.dma.abortPending = false → s.dma.qsel = .tx .dwt →
    s.dma.size = .b4 → s.dma.incr = false → s.dma.count.toNat = n → n ≠ 0 →
    s.world.sched = (List.replicate n [Turn.dmaUnit, Turn.engine .dwt]).flatten ++ rest →
    ∃ t, runSteps (2 * n) s = .next t ∧
      t.trace = s.trace ++ (List.replicate n (dwtEvents (s.mem.readLE s.dma.addr 4))).flatten ∧
      t.dma.busy = false ∧ t.dma.count = 0#32 ∧ t.eng.txqDwt = [] ∧ t.mem = s.mem

/-- R195 to R198, R203, R359: a read transaction of n bytes, from its two units to the restored data lane. -/
def Obligations.ReadTransactionTrace : Prop :=
  ∀ (s : State) (wn wc : Word) (bs more : List Byte) (rest : List Turn), s.faults = [] → s.refused = none →
    s.eng.enable = 8#4 → s.eng.phase = .count → s.eng.txqCdr = [wn, wc] → s.eng.rxq = [] →
    (slice wn 0 16).toNat = bs.length → bs.length ≤ s.params.qDepth → s.world.device = bs ++ more →
    s.world.sched = List.replicate (bs.length + 3) (Turn.engine .cdr) ++ rest →
    ∃ t, runSteps (bs.length + 3) s = .next t ∧
      t.trace = s.trace ++ [.w false (slice wc 0 8), .dirIn] ++ (if bs = [] then [] else [.settle])
        ++ bs.map BusEvent.rd ++ [.dirOut] ∧
      t.eng.rxq = bs ∧ t.eng.phase = .count ∧ t.eng.txqCdr = [] ∧ t.pins.dataDir = .out

/-! ## Host memory -/

/-- R131 with R82 and R90 cases (a) and (b): MEMW, MEMR and DELAY, case by case.  That an access past 2^32 - 1 goes on at 0
is R13 read into R131's range (log 11), and that a read races only a transfer out of RXQ is R90's case (b) over the wider
wording of R244 (log 27): both are the model's reading. -/
def Obligations.HostMemoryOperations : Prop :=
  ∀ (s : State) (a : Word) (n : AccessSize) (v : Word),
    let byte : Nat → Nat := fun i => (a.toNat + i) % 2 ^ 32
    let valid := ∀ i < sizeBytes n, memValid s.params (byte i) = true
    let raced := ∃ i < sizeBytes n, s.dma.lo ≤ byte i ∧ byte i < s.dma.hi
    (¬valid →
      exec (.memw a n v) s = .next { s with refused := some .badHostMemory } ∧
      exec (.memr a n) s = .next { s with refused := some .badHostMemory }) ∧
    (valid →
      (s.dma.busy = true ∧ raced → exec (.memw a n v) s = .next (s.raise .bufferRace)) ∧
      (s.dma.busy = true ∧ s.dma.qsel = .rx ∧ raced → exec (.memr a n) s = .next (s.raise .bufferRace)) ∧
      (¬(s.dma.busy = true ∧ raced) →
        ∃ m : Memory, exec (.memw a n v) s = .next { s with mem := m } ∧
          (∀ i < sizeBytes n, m.read (byte i) = slice v (8 * i) 8) ∧
          ∀ b, (∀ i < sizeBytes n, b ≠ byte i) → m.read b = s.mem.read b) ∧
      (¬(s.dma.busy = true ∧ s.dma.qsel = .rx ∧ raced) →
        ∃ r : Word, exec (.memr a n) s = .next { s with host.reads := s.host.reads ++ [r] } ∧
          (∀ i < sizeBytes n, slice r (8 * i) 8 = s.mem.read (byte i)) ∧ r.toNat < 2 ^ (8 * sizeBytes n))) ∧
    ∀ t, exec (.delay t) s = .next { s with trace := s.trace ++ [.delay t] }

/-! ## Invariants of every step -/

/-- R80, R82: every step keeps the canonical form of system memory. -/
def Obligations.StepKeepsMemoryCanonical : Prop :=
  ∀ s t : State, MemoryInv s → step s = .next t → MemoryInv t

/-- R41, R64, R65, R97, R182, R206: every step keeps the agreement of the engines, the pins and the trace: at most one
engine is active, the data lane is input exactly in phase READ, and the events come in the order of R97. -/
def Obligations.StepKeepsTheBusInOrder : Prop :=
  ∀ s t : State, BusInv s → step s = .next t → BusInv t

/-- R44, R62: every step keeps every queue within its capacity. -/
def Obligations.StepKeepsQueuesWithinCapacity : Prop :=
  ∀ s t : State, QueueInv s → step s = .next t → QueueInv t

/-- R230, R233, R236, R334: every step keeps the DMA's invariant; so every address a unit step will touch was admitted. -/
def Obligations.StepKeepsTheTransferInRange : Prop :=
  ∀ s t : State, DmaInv s → step s = .next t → DmaInv t

/-- R402: the codes each error field can hold, after reset and kept by every step (with the limits' range, R165, R166). -/
def Obligations.ErrorFieldsHoldTheirUnitsCodes : Prop :=
  (∀ p : Params, StatusInv (State.resetWith p)) ∧ ∀ s t : State, StatusInv s → step s = .next t → StatusInv t

/-- R66, R68 (and R10, R37, R63, R67): `F` and the trace start empty and only grow; no step changes a parameter, undoes
INIT, or writes a locked register.  `F`, `refused` and the trace are kept by every meaning and by every agent's turn, in
faulted and refused states too. -/
def Obligations.RecordOfARunOnlyGrows : Prop :=
  (∀ p : Params, (State.resetWith p).faults = [] ∧ (State.resetWith p).trace = []) ∧
    (∀ s t : State, step s = .next t → Later s t) ∧
    (∀ (i : Instr) (s t : State), exec i s = .next t →
      s.faults <+: t.faults ∧ (s.refused.isSome = true → t.refused.isSome = true) ∧ s.trace <+: t.trace) ∧
    ∀ (u : Turn) (s t : State), runTurn u s = .next t →
      s.faults <+: t.faults ∧ (s.refused.isSome = true → t.refused.isSome = true) ∧ s.trace <+: t.trace

/-- The invariants hold right after reset, whatever the parameters (R441).  The model's choices: the parameters of
`State.reset` (log 4), and the levels of the data lane, WR and RD before INIT, which the bus invariant speaks of and R441
leaves open (log 7). -/
def Obligations.InvariantsHoldAtReset : Prop :=
  (∀ p : Params, MemoryInv (State.resetWith p) ∧ BusInv (State.resetWith p) ∧ QueueInv (State.resetWith p) ∧
    DmaInv (State.resetWith p)) ∧ State.reset = State.resetWith Params.testChoices

/-- R441, R442, R70: what the registers read and what the hidden state holds right after reset. -/
def Obligations.ResetValuesAreTheTable : Prop :=
  ∀ p : Params,
    let s := State.resetWith p
    (∀ r ∈ [(Instr.rCfgPins, 0#32), (.rCfgPins2, 0x0000FF00#32), (.rCfgWclk, 0#32), (.rCfgRclk, 0#32),
        (.rCfgStatus, 0#32), (.rTxLimit, 0#32), (.rRxLimit, 0#32), (.rPinctl, 1#32), (.rEngEnable, 0#32),
        (.rEngIdle, 0xF#32), (.rTxLevel, 0#32), (.rRxLevel, 0#32), (.rDmaAddr, 0#32), (.rDmaCount, 0#32),
        (.rDmaCtrl, 0#32), (.rDmaAbort, 0#32), (.rEncSrc, 0#32), (.rEncDst, 0#32), (.rEncCount, 0#32), (.rEncPal, 0#32),
        (.rEncPalLen, 0#32), (.rEncFg, 0#32), (.rEncBg, 0#32), (.rEncDim, 0#32), (.rEncCtrl, 0#32), (.rEncStatus, 0#32),
        (.rWinX, 0#32), (.rWinY, 0#32), (.rWinCtrl, 0#32), (.rWinCmd, 0x002C2B2A#32), (.rWinStatus, 0#32)],
      exec r.1 s = .next { s with host.reads := [r.2] }) ∧
    (∀ e, s.txq e = []) ∧ s.eng.rxq = [] ∧ s.eng.phase = .count ∧ s.dma.grace = false ∧ s.dma.lo = 0 ∧ s.dma.hi = 0 ∧
    s.win.pending = [] ∧ s.pins.driven = false ∧ s.faults = [] ∧ s.refused = none ∧ s.trace = []
end

