-- ==== Sys2Proof/Laws/Bits.lean ====
section
/-! SUPPORT. Slices of concatenated bit fields, and the access words of `encode` decoded. -/

namespace Sys2Proof.Laws

/-! ## Slices of concatenations -/

theorem slice_append_lo {v w : Nat} (x : BitVec v) (y : BitVec w) (i n : Nat) (h : i + n ≤ w) :
    slice (x ++ y) i n = slice y i n := BitVec.extractLsb'_append_eq_of_add_le h

theorem slice_append_hi {v w : Nat} (x : BitVec v) (y : BitVec w) (i n : Nat) (h : w ≤ i) :
    slice (x ++ y) i n = slice x (i - w) n := BitVec.extractLsb'_append_eq_of_le h

theorem slice_self {w : Nat} (x : BitVec w) : slice x 0 w = x := by simp [slice]

theorem bitAt_append_lo {v w : Nat} (x : BitVec v) (y : BitVec w) (i : Nat) (h : i < w) :
    bitAt (x ++ y) i = bitAt y i := by simp [bitAt, BitVec.getLsbD_append, h]

theorem bitAt_append_hi {v w : Nat} (x : BitVec v) (y : BitVec w) (i : Nat) (h : w ≤ i) :
    bitAt (x ++ y) i = bitAt x (i - w) := by simp [bitAt, BitVec.getLsbD_append, Nat.not_lt.2 h]

theorem bitAt_ofBool (b : Bool) : bitAt (BitVec.ofBool b) 0 = b := by cases b <;> decide

/-- A field is the word divided by the weight of its lowest bit, modulo the weight of its width (R12). -/
theorem slice_toNat {w : Nat} (v : BitVec w) (lo n : Nat) :
    (slice v lo n).toNat = v.toNat / 2 ^ lo % 2 ^ n := by
  simp [slice, BitVec.extractLsb'_toNat, Nat.shiftRight_eq_div_pow]

theorem bitAt_eq {w : Nat} (v : BitVec w) (i : Nat) : bitAt v i = decide (v.toNat / 2 ^ i % 2 = 1) := by
  simp [bitAt, BitVec.getLsbD, Nat.testBit_eq_decide_div_mod_eq]

theorem append_toNat {v w : Nat} (x : BitVec v) (y : BitVec w) :
    (x ++ y).toNat = x.toNat * 2 ^ w + y.toNat := by
  rw [BitVec.toNat_append, Nat.shiftLeft_eq, Nat.mul_comm, Nat.two_pow_add_eq_or_of_lt y.isLt]

/-! ## Access words (R111) -/

theorem ofOffset_offset (r : Reg) : Reg.ofOffset r.offset = some r := by cases r <;> decide

theorem offset_aligned (r : Reg) : slice r.offset 0 2 = 0#2 := by cases r <;> decide

/-- What a found register's offset is. -/
theorem offset_of_ofOffset {off : BitVec 12} {r : Reg} (h : Reg.ofOffset off = some r) : r.offset = off := by
  have := List.find?_some h
  simpa using this

theorem writeWord_data (r : Reg) (d : Word) : slice (writeWord r d) 0 32 = d := by
  unfold writeWord
  simp (disch := omega) only [slice_append_lo, slice_self]

theorem writeWord_off (r : Reg) (d : Word) : slice (writeWord r d) 32 12 = r.offset := by
  unfold writeWord
  simp (disch := omega) only [slice_append_lo, slice_append_hi, Nat.reduceSub, slice_self]

theorem writeWord_top (r : Reg) (d : Word) : slice (writeWord r d) 45 3 = 0#3 := by
  unfold writeWord
  simp (disch := omega) only [slice_append_hi, Nat.reduceSub, slice_self]

theorem writeWord_dir (r : Reg) (d : Word) : bitAt (writeWord r d) 44 = true := by
  unfold writeWord
  simp (disch := omega) only [bitAt_append_lo, bitAt_append_hi, Nat.reduceSub]
  decide

/-- The access word of a write decodes to the form its DATA selects. -/
theorem decodeAccess_writeWord (r : Reg) (d : Word) : decodeAccess (writeWord r d) = decodeWrite r d := by
  simp [decodeAccess, writeWord_top, writeWord_off, writeWord_dir, writeWord_data, offset_aligned, ofOffset_offset]

/-- The access word of a read decodes to the register's read form. -/
theorem decodeAccess_readWord (r : Reg) : decodeAccess (readWord r) = decodeRead r := by
  have hd : slice (readWord r) 0 32 = 0#32 := by
    unfold readWord; simp (disch := omega) only [slice_append_lo, slice_self]
  have ho : slice (readWord r) 32 12 = r.offset := by
    unfold readWord; simp (disch := omega) only [slice_append_lo, slice_append_hi, Nat.reduceSub, slice_self]
  have ht : slice (readWord r) 45 3 = 0#3 := by
    unfold readWord; simp (disch := omega) only [slice_append_hi, Nat.reduceSub, slice_self]
  have hr : bitAt (readWord r) 44 = false := by
    unfold readWord
    simp (disch := omega) only [bitAt_append_lo, bitAt_append_hi, Nat.reduceSub]
    decide
  simp [decodeAccess, ht, ho, hr, hd, offset_aligned, ofOffset_offset]

/-- An access word that decodes is the write or the read of one register. -/
theorem decodeAccess_cases {w : AccessWord} {i : Instr} (h : decodeAccess w = .ok i) :
    ∃ r, slice w 45 3 = 0#3 ∧ slice w 32 12 = r.offset ∧
      ((bitAt w 44 = true ∧ decodeWrite r (slice w 0 32) = .ok i) ∨
        (bitAt w 44 = false ∧ slice w 0 32 = 0#32 ∧ decodeRead r = .ok i)) := by
  unfold decodeAccess at h
  simp only at h
  split at h
  · cases h
  · rename_i htop
    split at h
    · cases h
    · split at h
      · cases h
      · rename_i r hr
        refine ⟨r, by simpa using htop, (offset_of_ofOffset hr).symm, ?_⟩
        split at h
        · exact .inl ⟨‹_›, h⟩
        · split at h
          · cases h
          · rename_i hdir hdata
            exact .inr ⟨by simpa using hdir, by simpa using hdata, h⟩

/-- A word with the direction and offset of a write of `r` is that write, of its own DATA (R111). -/
theorem writeWord_of_mask {w : AccessWord} {r : Reg} (h : w &&& 0xFFFF00000000#48 = writeWord r 0#32) :
    w = writeWord r (slice w 0 32) := by
  have e : ∀ d, writeWord r d = (0#3 ++ 1#1 ++ r.offset : BitVec 16) ++ d := fun _ => rfl
  rw [e] at h ⊢
  generalize (0#3 ++ 1#1 ++ r.offset : BitVec 16) = o at *
  have m1 : ∀ j, 32 ≤ j → j < 48 → (0xFFFF00000000#48).getLsbD j = true := by decide
  apply BitVec.eq_of_getLsbD_eq
  intro i hi
  have := congrArg (·.getLsbD i) h
  simp only [BitVec.getLsbD_and, BitVec.getLsbD_append, slice, BitVec.getLsbD_extractLsb'] at this ⊢
  by_cases h32 : i < 32
  · simp [h32]
  · simpa [h32, m1 i (by omega) hi] using this

/-- A word with the fixed bits `m` under a mask `k` that covers direction and offset decodes as the write of its DATA, and
its DATA has the fixed bits (R111, R114). -/
theorem decode_of_mask {w m k : AccessWord} (r : Reg) (h : w &&& k = m)
    (hm : m &&& 0xFFFF00000000#48 = writeWord r 0#32) (hk : k &&& 0xFFFF00000000#48 = 0xFFFF00000000#48) :
    decode (.access w) = decodeWrite r (slice w 0 32) ∧ slice w 0 32 &&& slice k 0 32 = slice m 0 32 := by
  constructor
  · have hw : w &&& 0xFFFF00000000#48 = writeWord r 0#32 := by
      rw [← hm, ← h, BitVec.and_assoc, hk]
    have e := writeWord_of_mask hw
    rw [e]
    simp [decode, decodeAccess_writeWord, writeWord_data]
  · subst h
    simp [slice, BitVec.extractLsb'_and]

theorem bit_of_mask {v k m : Word} (h : v &&& k = m) (i : Nat) (hk : bitAt k i = true) : bitAt v i = bitAt m i := by
  subst h; simp [bitAt] at *; simp [hk]

theorem slice_of_mask {v k m : Word} (h : v &&& k = m) (lo n : Nat) (hk : slice k lo n = BitVec.allOnes n) :
    slice v lo n = slice m lo n := by
  subst h; simp [slice, BitVec.extractLsb'_and] at *; rw [hk]; simp

/-! ## Bytes put together again -/

theorem append_bytes4 (d : Word) : slice d 24 8 ++ slice d 16 8 ++ slice d 8 8 ++ slice d 0 8 = d := by
  apply BitVec.eq_of_toNat_eq; simp only [append_toNat, slice_toNat]; have := d.isLt; omega

theorem append_bytes3 (d : Word) : slice d 16 8 ++ slice d 8 8 ++ slice d 0 8 = slice d 0 24 := by
  apply BitVec.eq_of_toNat_eq; simp only [append_toNat, slice_toNat]; have := d.isLt; omega

theorem append_bytes2 (d : Word) : slice d 8 8 ++ slice d 0 8 = slice d 0 16 := by
  apply BitVec.eq_of_toNat_eq; simp only [append_toNat, slice_toNat]; have := d.isLt; omega

theorem append_halves (d : Word) : slice d 16 16 ++ slice d 0 16 = d := by
  apply BitVec.eq_of_toNat_eq; simp only [append_toNat, slice_toNat]; have := d.isLt; omega

end Sys2Proof.Laws
end

