-- ==== Sys2Proof/Laws/Memory.lean ====
section
/-! SUPPORT. What the memory operations do (Machine/Memory): reading after writing, the canonical form kept, and the range
checks as statements about bytes. -/

namespace Sys2Proof.Machine

/-! ## One byte -/

theorem Memory.find_write (m : Memory) (a x : Nat) (b : Byte) :
    (m.write a b).find x = if x = a then some b else m.find x := by
  induction m with
  | nil =>
    by_cases h : x = a
    · simp [Memory.write, Memory.find, h]
    · have hb : (x == a) = false := by simpa using h
      simp [Memory.write, Memory.find, List.lookup, h, hb]
  | cons p m ih =>
    obtain ⟨y, v⟩ := p
    unfold Memory.find at ih ⊢
    by_cases hx : x = a <;> by_cases hy : x = y <;> unfold Memory.write <;> split <;>
      try split
    all_goals simp_all [List.lookup_cons]
    all_goals split <;> simp_all

/-- Reading after writing a byte. -/
theorem Memory.read_write (m : Memory) (a x : Nat) (b : Byte) :
    (m.write a b).read x = if x = a then b else m.read x := by
  unfold Memory.read
  rw [Memory.find_write]
  split <;> simp_all

/-- The addresses written are the addresses listed. -/
theorem Memory.mem_write {m : Memory} {a : Nat} {b : Byte} {p : Nat × Byte} (h : p ∈ m.write a b) :
    p = (a, b) ∨ p ∈ m := by
  induction m with
  | nil => simpa [Memory.write] using h
  | cons q m ih =>
    obtain ⟨x, v⟩ := q
    unfold Memory.write at h
    split at h
    · simpa using h
    · split at h
      · rcases List.mem_cons.1 h with h | h
        · exact .inl h
        · exact .inr (List.mem_cons_of_mem _ h)
      · rcases List.mem_cons.1 h with h | h
        · exact .inr (h ▸ List.mem_cons_self ..)
        · exact (ih h).imp id (List.mem_cons_of_mem _)

theorem Memory.wf_nil : Memory.wf [] := by simp [Memory.wf]

/-- A byte write keeps the canonical form. -/
theorem Memory.wf_write {m : Memory} (h : m.wf) {a : Nat} (ha : a < 2 ^ 32) (b : Byte) : (m.write a b).wf := by
  refine ⟨?_, fun p hp => ?_⟩
  · obtain ⟨hs, -⟩ := h
    induction m with
    | nil => simp [Memory.write]
    | cons q m ih =>
      obtain ⟨x, v⟩ := q
      rw [List.pairwise_cons] at hs
      unfold Memory.write
      split
      · rename_i hax
        refine List.pairwise_cons.2 ⟨fun p hp => ?_, List.pairwise_cons.2 hs⟩
        rcases List.mem_cons.1 hp with rfl | hp
        · exact hax
        · exact hax.trans (hs.1 p hp)
      · split
        · rename_i hax
          exact List.pairwise_cons.2 ⟨fun p hp => hax ▸ hs.1 p hp, hs.2⟩
        · refine List.pairwise_cons.2 ⟨fun p hp => ?_, ih hs.2⟩
          rcases Memory.mem_write hp with rfl | hp
          · simp only; omega
          · exact hs.1 p hp
  · rcases Memory.mem_write hp with rfl | hp
    · exact ha
    · exact h.2 p hp

/-! ## Equal contents, equal data -/

theorem Memory.find_eq_some_iff {m : Memory} (h : m.wf) (a : Nat) (b : Byte) : m.find a = some b ↔ (a, b) ∈ m := by
  obtain ⟨hs, -⟩ := h
  unfold Memory.find
  induction m with
  | nil => simp
  | cons q m ih =>
    obtain ⟨x, v⟩ := q
    rw [List.pairwise_cons] at hs
    rw [List.lookup_cons]
    by_cases hax : a = x
    · subst hax
      simp only [beq_self_eq_true, Option.some.injEq, List.mem_cons, Prod.mk.injEq, true_and]
      constructor
      · exact fun h => .inl h.symm
      · rintro (h | h)
        · exact h.symm
        · exact absurd (hs.1 _ h) (lt_irrefl _)
    · have : (a == x) = false := by simpa using hax
      simp [this, ih hs.2, hax]

/-- Canonical memories with the same bytes written are the same list. -/
theorem Memory.ext {m n : Memory} (hm : m.wf) (hn : n.wf) (h : ∀ a, m.find a = n.find a) : m = n := by
  have hp : m.Perm n := by
    have nd : ∀ {k : Memory}, k.wf → k.Nodup := fun hk => hk.1.imp fun {p q} hlt heq => by
      rw [heq] at hlt; exact lt_irrefl _ hlt
    refine (List.perm_ext_iff_of_nodup (nd hm) (nd hn)).2 fun ⟨a, b⟩ => ?_
    rw [← Memory.find_eq_some_iff hm, ← Memory.find_eq_some_iff hn, h]
  exact hp.eq_of_pairwise (fun a b _ _ h1 h2 => absurd (h1.trans h2) (lt_irrefl _)) hm.1 hn.1

/-! ## Little-endian values (R82) -/

/-- Reading after a little-endian write of `n` bytes: byte `i` is the one at distance `i` from `a`, modulo 2^32. -/
theorem Memory.read_writeLE (m : Memory) (a v : Word) {n : Nat} (hn : n ≤ 2 ^ 32) (x : Nat) :
    (m.writeLE a v n).read x =
      if x < 2 ^ 32 ∧ (BitVec.ofNat 32 x - a).toNat < n then v.extractLsb' (8 * (BitVec.ofNat 32 x - a).toNat) 8
      else m.read x := by
  induction n with
  | zero => rw [if_neg (by omega)]; rfl
  | succ n ih =>
    rw [Memory.writeLE, Memory.read_write, ih (by omega)]
    have hd : x = byteAddr a n ↔ x < 2 ^ 32 ∧ (BitVec.ofNat 32 x - a).toNat = n := by
      simp only [byteAddr, BitVec.toNat_add, BitVec.toNat_sub, BitVec.toNat_ofNat]
      omega
    by_cases hx : x = byteAddr a n
    · obtain ⟨hlt, he⟩ := hd.1 hx
      rw [if_pos hx, if_pos ⟨hlt, by omega⟩, he]
      rfl
    · rw [if_neg hx]
      have : ¬(x < 2 ^ 32 ∧ (BitVec.ofNat 32 x - a).toNat = n) := fun h => hx (hd.2 h)
      by_cases hr : x < 2 ^ 32 ∧ (BitVec.ofNat 32 x - a).toNat < n
      · rw [if_pos hr, if_pos ⟨hr.1, by omega⟩]
      · rw [if_neg hr, if_neg (by omega)]

/-- A byte of the value written. -/
theorem Memory.read_writeLE_at (m : Memory) (a v : Word) {n i : Nat} (hn : n ≤ 2 ^ 32) (hi : i < n) :
    (m.writeLE a v n).read (byteAddr a i) = v.extractLsb' (8 * i) 8 := by
  have hd : (BitVec.ofNat 32 (byteAddr a i) - a).toNat = i := by
    simp only [byteAddr, BitVec.toNat_add, BitVec.toNat_sub, BitVec.toNat_ofNat]
    omega
  rw [Memory.read_writeLE m a v hn, if_pos ⟨(a + BitVec.ofNat 32 i).isLt, by omega⟩, hd]

/-- Every other byte. -/
theorem Memory.read_writeLE_of_ne (m : Memory) (a v : Word) {n x : Nat} (h : ∀ i < n, x ≠ byteAddr a i) :
    (m.writeLE a v n).read x = m.read x := by
  induction n with
  | zero => rfl
  | succ n ih =>
    rw [Memory.writeLE, Memory.read_write, if_neg (h n (by omega)), ih fun i hi => h i (by omega)]

theorem Memory.wf_writeLE {m : Memory} (h : m.wf) (a v : Word) (n : Nat) : (m.writeLE a v n).wf := by
  induction n with
  | zero => exact h
  | succ n ih => exact Memory.wf_write ih (a + BitVec.ofNat 32 n).isLt _

/-- A value read depends on its bytes only. -/
theorem Memory.readLE_congr {m m' : Memory} {a : Word} {n : Nat}
    (h : ∀ i < n, m.read (byteAddr a i) = m'.read (byteAddr a i)) : m.readLE a n = m'.readLE a n := by
  induction n with
  | zero => rfl
  | succ n ih =>
    rw [Memory.readLE, Memory.readLE, ih fun i hi => h i (by omega), h n (by omega)]

/-! ## Filling a range -/

theorem Memory.find_fill (m : Memory) (dst : Nat) (out : Nat → Option Byte) (n x : Nat) :
    (m.fill dst out n).find x = if dst ≤ x ∧ x < dst + n then (out (x - dst)).or (m.find x) else m.find x := by
  induction n with
  | zero => rw [if_neg (by omega)]; rfl
  | succ n ih =>
    rw [Memory.fill]
    cases ho : out n with
    | none =>
      simp only
      rw [ih]
      by_cases hx : x = dst + n
      · subst hx
        rw [if_neg (by omega), if_pos (by omega)]
        simp [ho]
      · by_cases hr : dst ≤ x ∧ x < dst + n
        · rw [if_pos hr, if_pos (by omega)]
        · rw [if_neg hr, if_neg (by omega)]
    | some b =>
      simp only
      rw [Memory.find_write, ih]
      by_cases hx : x = dst + n
      · subst hx
        rw [if_pos rfl, if_pos (by omega)]
        simp [ho]
      · rw [if_neg hx]
        by_cases hr : dst ≤ x ∧ x < dst + n
        · rw [if_pos hr, if_pos (by omega)]
        · rw [if_neg hr, if_neg (by omega)]

/-- Reading after a fill: the byte written, or, outside the range and where nothing is written, the byte before. -/
theorem Memory.read_fill (m : Memory) (dst : Nat) (out : Nat → Option Byte) (n x : Nat) :
    (m.fill dst out n).read x =
      if dst ≤ x ∧ x < dst + n then (out (x - dst)).getD (m.read x) else m.read x := by
  unfold Memory.read
  rw [Memory.find_fill]
  split
  · cases out (x - dst) <;> simp
  · rfl

theorem Memory.wf_fill {m : Memory} (h : m.wf) (dst : Nat) (out : Nat → Option Byte) (n : Nat)
    (hn : n = 0 ∨ dst + n ≤ 2 ^ 32) : (m.fill dst out n).wf := by
  induction n with
  | zero => exact h
  | succ n ih =>
    rw [Memory.fill]
    split
    · exact Memory.wf_write (ih (by omega)) (by omega) _
    · exact ih (by omega)

/-! ## Ranges (R83, R90) -/

theorem memValid_iff (p : Params) (a : Nat) :
    memValid p a = true ↔ a < 2 ^ 32 ∧ ∃ r ∈ p.memRanges, r.lo ≤ a ∧ a < r.hi := by
  simp [memValid]

/-- Covering is sound: every address on the way lies in a stretch. -/
theorem coveredBy_sound {rs : List MemRange} {fuel a e : Nat} (h : coveredBy rs fuel a e = true) :
    ∀ b, a ≤ b → b < e → ∃ r ∈ rs, r.lo ≤ b ∧ b < r.hi := by
  induction fuel generalizing a with
  | zero =>
    intro b hb he
    simp [coveredBy] at h
    omega
  | succ fuel ih =>
    intro b hb he
    unfold coveredBy at h
    rcases Bool.or_eq_true_iff.1 h with h | h
    · have := of_decide_eq_true h; omega
    · split at h
      · rename_i r hr
        have hp := List.find?_some hr
        simp only [Bool.and_eq_true, decide_eq_true_eq] at hp
        by_cases hbr : b < r.hi
        · exact ⟨r, List.mem_of_find?_eq_some hr, by omega, hbr⟩
        · exact ih h b (by omega) he
      · cases h

/-- Covering is complete with a jump for every stretch that ends past the start. -/
theorem coveredBy_complete {rs : List MemRange} {fuel a e : Nat}
    (hf : (rs.filter fun r => decide (a < r.hi)).length ≤ fuel)
    (h : ∀ b, a ≤ b → b < e → ∃ r ∈ rs, r.lo ≤ b ∧ b < r.hi) : coveredBy rs fuel a e = true := by
  induction fuel generalizing a with
  | zero =>
    unfold coveredBy
    by_cases hae : e ≤ a
    · simpa using hae
    · obtain ⟨r, hr, -, hlt⟩ := h a le_rfl (by omega)
      have : r ∈ rs.filter fun r => decide (a < r.hi) := List.mem_filter.2 ⟨hr, by simpa using hlt⟩
      exact absurd (List.length_pos_of_mem this) (by omega)
  | succ fuel ih =>
    unfold coveredBy
    by_cases hae : e ≤ a
    · simp [hae]
    · have hlt : a < e := by omega
      simp only [hae, decide_false, Bool.false_or]
      cases hfind : rs.find? fun r => decide (r.lo ≤ a) && decide (a < r.hi) with
      | none =>
        obtain ⟨r, hr, hlo, hhi⟩ := h a le_rfl hlt
        have := List.find?_eq_none.1 hfind r hr
        simp [hlo, hhi] at this
      | some r =>
        have hp := List.find?_some hfind
        simp only [Bool.and_eq_true, decide_eq_true_eq] at hp
        have hmem := List.mem_of_find?_eq_some hfind
        refine ih ?_ fun b hb he => h b (by omega) he
        have hsub : (rs.filter fun q => decide (r.hi < q.hi)).length
            < (rs.filter fun q => decide (a < q.hi)).length := by
          rw [← List.countP_eq_length_filter, ← List.countP_eq_length_filter]
          have hle : ∀ l : List MemRange, l.countP (fun q => decide (r.hi < q.hi)) ≤
              l.countP fun q => decide (a < q.hi) := fun l =>
            List.countP_mono_left fun q _ hq => by
              have := of_decide_eq_true hq
              exact decide_eq_true (by omega)
          obtain ⟨l₁, l₂, rfl⟩ := List.append_of_mem hmem
          have h1 := hle l₁
          have h2 := hle l₂
          simp only [List.countP_append, List.countP_cons]
          have e1 : decide (r.hi < r.hi) = false := by simp
          have e2 : decide (a < r.hi) = true := by simpa using hp.2
          rw [e1, e2]
          simp only [if_true, Bool.false_eq_true, if_false]
          omega
        omega

/-- `rangeOK` (R83): a range is admitted exactly when it is empty, or ends by 2^32 and holds only valid bytes. -/
theorem rangeOk_iff (p : Params) (r : Span) :
    rangeOk p r = true ↔
      r.len = 0 ∨ (r.start + r.len ≤ 2 ^ 32 ∧ ∀ b, r.start ≤ b → b < r.start + r.len → memValid p b = true) := by
  simp only [rangeOk, Bool.or_eq_true, Bool.and_eq_true, decide_eq_true_eq]
  refine or_congr_right (and_congr_right fun hle => ⟨fun h b hb he => ?_, fun h => ?_⟩)
  · exact (memValid_iff p b).2 ⟨by omega, coveredBy_sound h b hb he⟩
  · exact coveredBy_complete (List.length_filter_le ..) fun b hb he => ((memValid_iff p b).1 (h b hb he)).2

/-- Two ranges overlap exactly when they share a byte (R90, R305). -/
theorem overlaps_iff (r q : Span) :
    r.overlaps q = true ↔ ∃ b, (r.start ≤ b ∧ b < r.start + r.len) ∧ q.start ≤ b ∧ b < q.start + q.len := by
  simp only [Span.overlaps, Bool.and_eq_true, decide_eq_true_eq]
  constructor
  · rintro ⟨⟨⟨h1, h2⟩, h3⟩, h4⟩
    exact ⟨max r.start q.start, by omega, by omega⟩
  · rintro ⟨b, hb, hb'⟩
    omega

end Sys2Proof.Machine
end

