-- ==== Sys2Proof/Laws/State.lean ====
section
/-! SUPPORT. One lemma per field per update of the state (Machine/Ops), so that no proof unfolds an update. -/

namespace Sys2Proof.Machine

/-! ## `State.raise` -/

@[simp] theorem State.raise_params (s : State) (f : Fault) : (s.raise f).params = s.params := by
  unfold State.raise; split <;> rfl
@[simp] theorem State.raise_cfg (s : State) (f : Fault) : (s.raise f).cfg = s.cfg := by
  unfold State.raise; split <;> rfl
@[simp] theorem State.raise_pinctl (s : State) (f : Fault) : (s.raise f).pinctl = s.pinctl := by
  unfold State.raise; split <;> rfl
@[simp] theorem State.raise_eng (s : State) (f : Fault) : (s.raise f).eng = s.eng := by
  unfold State.raise; split <;> rfl
@[simp] theorem State.raise_dma (s : State) (f : Fault) : (s.raise f).dma = s.dma := by
  unfold State.raise; split <;> rfl
@[simp] theorem State.raise_enc (s : State) (f : Fault) : (s.raise f).enc = s.enc := by
  unfold State.raise; split <;> rfl
@[simp] theorem State.raise_win (s : State) (f : Fault) : (s.raise f).win = s.win := by
  unfold State.raise; split <;> rfl
@[simp] theorem State.raise_pins (s : State) (f : Fault) : (s.raise f).pins = s.pins := by
  unfold State.raise; split <;> rfl
@[simp] theorem State.raise_refused (s : State) (f : Fault) : (s.raise f).refused = s.refused := by
  unfold State.raise; split <;> rfl
@[simp] theorem State.raise_trace (s : State) (f : Fault) : (s.raise f).trace = s.trace := by
  unfold State.raise; split <;> rfl
@[simp] theorem State.raise_mem (s : State) (f : Fault) : (s.raise f).mem = s.mem := by
  unfold State.raise; split <;> rfl
@[simp] theorem State.raise_host (s : State) (f : Fault) : (s.raise f).host = s.host := by
  unfold State.raise; split <;> rfl
@[simp] theorem State.raise_world (s : State) (f : Fault) : (s.raise f).world = s.world := by
  unfold State.raise; split <;> rfl
@[simp] theorem State.raise_faults (s : State) (f : Fault) :
    (s.raise f).faults = if s.faults.contains f then s.faults else s.faults ++ [f] := by
  unfold State.raise; split <;> rfl

/-! ## `State.refuse` -/

@[simp] theorem State.refuse_params (s : State) (r : Refusal) : (s.refuse r).params = s.params := rfl
@[simp] theorem State.refuse_cfg (s : State) (r : Refusal) : (s.refuse r).cfg = s.cfg := rfl
@[simp] theorem State.refuse_pinctl (s : State) (r : Refusal) : (s.refuse r).pinctl = s.pinctl := rfl
@[simp] theorem State.refuse_eng (s : State) (r : Refusal) : (s.refuse r).eng = s.eng := rfl
@[simp] theorem State.refuse_dma (s : State) (r : Refusal) : (s.refuse r).dma = s.dma := rfl
@[simp] theorem State.refuse_enc (s : State) (r : Refusal) : (s.refuse r).enc = s.enc := rfl
@[simp] theorem State.refuse_win (s : State) (r : Refusal) : (s.refuse r).win = s.win := rfl
@[simp] theorem State.refuse_pins (s : State) (r : Refusal) : (s.refuse r).pins = s.pins := rfl
@[simp] theorem State.refuse_faults (s : State) (r : Refusal) : (s.refuse r).faults = s.faults := rfl
@[simp] theorem State.refuse_refused (s : State) (r : Refusal) : (s.refuse r).refused = some r := rfl
@[simp] theorem State.refuse_trace (s : State) (r : Refusal) : (s.refuse r).trace = s.trace := rfl
@[simp] theorem State.refuse_mem (s : State) (r : Refusal) : (s.refuse r).mem = s.mem := rfl
@[simp] theorem State.refuse_host (s : State) (r : Refusal) : (s.refuse r).host = s.host := rfl
@[simp] theorem State.refuse_world (s : State) (r : Refusal) : (s.refuse r).world = s.world := rfl

/-! ## `State.hold` -/

@[simp] theorem State.hold_params (s : State) (h : Hold) : (s.hold h).params = s.params := rfl
@[simp] theorem State.hold_cfg (s : State) (h : Hold) : (s.hold h).cfg = s.cfg := rfl
@[simp] theorem State.hold_pinctl (s : State) (h : Hold) : (s.hold h).pinctl = s.pinctl := rfl
@[simp] theorem State.hold_eng (s : State) (h : Hold) : (s.hold h).eng = s.eng := rfl
@[simp] theorem State.hold_dma (s : State) (h : Hold) : (s.hold h).dma = s.dma := rfl
@[simp] theorem State.hold_enc (s : State) (h : Hold) : (s.hold h).enc = s.enc := rfl
@[simp] theorem State.hold_win (s : State) (h : Hold) : (s.hold h).win = s.win := rfl
@[simp] theorem State.hold_pins (s : State) (h : Hold) : (s.hold h).pins = s.pins := rfl
@[simp] theorem State.hold_faults (s : State) (h : Hold) : (s.hold h).faults = s.faults := rfl
@[simp] theorem State.hold_refused (s : State) (h : Hold) : (s.hold h).refused = s.refused := rfl
@[simp] theorem State.hold_trace (s : State) (h : Hold) : (s.hold h).trace = s.trace := rfl
@[simp] theorem State.hold_mem (s : State) (h : Hold) : (s.hold h).mem = s.mem := rfl
@[simp] theorem State.hold_host (s : State) (h : Hold) : (s.hold h).host = { s.host with held := some h } := rfl
@[simp] theorem State.hold_world (s : State) (h : Hold) : (s.hold h).world = s.world := rfl

/-! ## `State.unhold` -/

@[simp] theorem State.unhold_params (s : State) : (s.unhold).params = s.params := rfl
@[simp] theorem State.unhold_cfg (s : State) : (s.unhold).cfg = s.cfg := rfl
@[simp] theorem State.unhold_pinctl (s : State) : (s.unhold).pinctl = s.pinctl := rfl
@[simp] theorem State.unhold_eng (s : State) : (s.unhold).eng = s.eng := rfl
@[simp] theorem State.unhold_dma (s : State) : (s.unhold).dma = s.dma := rfl
@[simp] theorem State.unhold_enc (s : State) : (s.unhold).enc = s.enc := rfl
@[simp] theorem State.unhold_win (s : State) : (s.unhold).win = s.win := rfl
@[simp] theorem State.unhold_pins (s : State) : (s.unhold).pins = s.pins := rfl
@[simp] theorem State.unhold_faults (s : State) : (s.unhold).faults = s.faults := rfl
@[simp] theorem State.unhold_refused (s : State) : (s.unhold).refused = s.refused := rfl
@[simp] theorem State.unhold_trace (s : State) : (s.unhold).trace = s.trace := rfl
@[simp] theorem State.unhold_mem (s : State) : (s.unhold).mem = s.mem := rfl
@[simp] theorem State.unhold_host (s : State) : (s.unhold).host = { s.host with held := none } := rfl
@[simp] theorem State.unhold_world (s : State) : (s.unhold).world = s.world := rfl

/-! ## `State.hostReturn` -/

@[simp] theorem State.hostReturn_params (s : State) (v : Word) : (s.hostReturn v).params = s.params := rfl
@[simp] theorem State.hostReturn_cfg (s : State) (v : Word) : (s.hostReturn v).cfg = s.cfg := rfl
@[simp] theorem State.hostReturn_pinctl (s : State) (v : Word) : (s.hostReturn v).pinctl = s.pinctl := rfl
@[simp] theorem State.hostReturn_eng (s : State) (v : Word) : (s.hostReturn v).eng = s.eng := rfl
@[simp] theorem State.hostReturn_dma (s : State) (v : Word) : (s.hostReturn v).dma = s.dma := rfl
@[simp] theorem State.hostReturn_enc (s : State) (v : Word) : (s.hostReturn v).enc = s.enc := rfl
@[simp] theorem State.hostReturn_win (s : State) (v : Word) : (s.hostReturn v).win = s.win := rfl
@[simp] theorem State.hostReturn_pins (s : State) (v : Word) : (s.hostReturn v).pins = s.pins := rfl
@[simp] theorem State.hostReturn_faults (s : State) (v : Word) : (s.hostReturn v).faults = s.faults := rfl
@[simp] theorem State.hostReturn_refused (s : State) (v : Word) : (s.hostReturn v).refused = s.refused := rfl
@[simp] theorem State.hostReturn_trace (s : State) (v : Word) : (s.hostReturn v).trace = s.trace := rfl
@[simp] theorem State.hostReturn_mem (s : State) (v : Word) : (s.hostReturn v).mem = s.mem := rfl
@[simp] theorem State.hostReturn_host (s : State) (v : Word) : (s.hostReturn v).host = { s.host with reads := s.host.reads ++ [v] } := rfl
@[simp] theorem State.hostReturn_world (s : State) (v : Word) : (s.hostReturn v).world = s.world := rfl

/-! ## `State.hostAdvance` -/

@[simp] theorem State.hostAdvance_params (s : State) : (s.hostAdvance).params = s.params := rfl
@[simp] theorem State.hostAdvance_cfg (s : State) : (s.hostAdvance).cfg = s.cfg := rfl
@[simp] theorem State.hostAdvance_pinctl (s : State) : (s.hostAdvance).pinctl = s.pinctl := rfl
@[simp] theorem State.hostAdvance_eng (s : State) : (s.hostAdvance).eng = s.eng := rfl
@[simp] theorem State.hostAdvance_dma (s : State) : (s.hostAdvance).dma = s.dma := rfl
@[simp] theorem State.hostAdvance_enc (s : State) : (s.hostAdvance).enc = s.enc := rfl
@[simp] theorem State.hostAdvance_win (s : State) : (s.hostAdvance).win = s.win := rfl
@[simp] theorem State.hostAdvance_pins (s : State) : (s.hostAdvance).pins = s.pins := rfl
@[simp] theorem State.hostAdvance_faults (s : State) : (s.hostAdvance).faults = s.faults := rfl
@[simp] theorem State.hostAdvance_refused (s : State) : (s.hostAdvance).refused = s.refused := rfl
@[simp] theorem State.hostAdvance_trace (s : State) : (s.hostAdvance).trace = s.trace := rfl
@[simp] theorem State.hostAdvance_mem (s : State) : (s.hostAdvance).mem = s.mem := rfl
@[simp] theorem State.hostAdvance_host (s : State) : (s.hostAdvance).host = { s.host with program := s.host.program.tail, pos := s.host.pos + 1 } := rfl
@[simp] theorem State.hostAdvance_world (s : State) : (s.hostAdvance).world = s.world := rfl

/-! ## `State.reportCfg` -/

@[simp] theorem State.reportCfg_params (s : State) (c : ErrCode) : (s.reportCfg c).params = s.params := rfl
@[simp] theorem State.reportCfg_cfg (s : State) (c : ErrCode) : (s.reportCfg c).cfg = { s.cfg with err := c } := rfl
@[simp] theorem State.reportCfg_pinctl (s : State) (c : ErrCode) : (s.reportCfg c).pinctl = s.pinctl := rfl
@[simp] theorem State.reportCfg_eng (s : State) (c : ErrCode) : (s.reportCfg c).eng = s.eng := rfl
@[simp] theorem State.reportCfg_dma (s : State) (c : ErrCode) : (s.reportCfg c).dma = s.dma := rfl
@[simp] theorem State.reportCfg_enc (s : State) (c : ErrCode) : (s.reportCfg c).enc = s.enc := rfl
@[simp] theorem State.reportCfg_win (s : State) (c : ErrCode) : (s.reportCfg c).win = s.win := rfl
@[simp] theorem State.reportCfg_pins (s : State) (c : ErrCode) : (s.reportCfg c).pins = s.pins := rfl
@[simp] theorem State.reportCfg_faults (s : State) (c : ErrCode) : (s.reportCfg c).faults = s.faults := rfl
@[simp] theorem State.reportCfg_refused (s : State) (c : ErrCode) : (s.reportCfg c).refused = s.refused := rfl
@[simp] theorem State.reportCfg_trace (s : State) (c : ErrCode) : (s.reportCfg c).trace = s.trace := rfl
@[simp] theorem State.reportCfg_mem (s : State) (c : ErrCode) : (s.reportCfg c).mem = s.mem := rfl
@[simp] theorem State.reportCfg_host (s : State) (c : ErrCode) : (s.reportCfg c).host = s.host := rfl
@[simp] theorem State.reportCfg_world (s : State) (c : ErrCode) : (s.reportCfg c).world = s.world := rfl

/-! ## `State.reportDma` -/

@[simp] theorem State.reportDma_params (s : State) (c : ErrCode) : (s.reportDma c).params = s.params := rfl
@[simp] theorem State.reportDma_cfg (s : State) (c : ErrCode) : (s.reportDma c).cfg = s.cfg := rfl
@[simp] theorem State.reportDma_pinctl (s : State) (c : ErrCode) : (s.reportDma c).pinctl = s.pinctl := rfl
@[simp] theorem State.reportDma_eng (s : State) (c : ErrCode) : (s.reportDma c).eng = s.eng := rfl
@[simp] theorem State.reportDma_dma (s : State) (c : ErrCode) : (s.reportDma c).dma = { s.dma with err := c } := rfl
@[simp] theorem State.reportDma_enc (s : State) (c : ErrCode) : (s.reportDma c).enc = s.enc := rfl
@[simp] theorem State.reportDma_win (s : State) (c : ErrCode) : (s.reportDma c).win = s.win := rfl
@[simp] theorem State.reportDma_pins (s : State) (c : ErrCode) : (s.reportDma c).pins = s.pins := rfl
@[simp] theorem State.reportDma_faults (s : State) (c : ErrCode) : (s.reportDma c).faults = s.faults := rfl
@[simp] theorem State.reportDma_refused (s : State) (c : ErrCode) : (s.reportDma c).refused = s.refused := rfl
@[simp] theorem State.reportDma_trace (s : State) (c : ErrCode) : (s.reportDma c).trace = s.trace := rfl
@[simp] theorem State.reportDma_mem (s : State) (c : ErrCode) : (s.reportDma c).mem = s.mem := rfl
@[simp] theorem State.reportDma_host (s : State) (c : ErrCode) : (s.reportDma c).host = s.host := rfl
@[simp] theorem State.reportDma_world (s : State) (c : ErrCode) : (s.reportDma c).world = s.world := rfl

/-! ## `State.reportEnc` -/

@[simp] theorem State.reportEnc_params (s : State) (c : ErrCode) : (s.reportEnc c).params = s.params := rfl
@[simp] theorem State.reportEnc_cfg (s : State) (c : ErrCode) : (s.reportEnc c).cfg = s.cfg := rfl
@[simp] theorem State.reportEnc_pinctl (s : State) (c : ErrCode) : (s.reportEnc c).pinctl = s.pinctl := rfl
@[simp] theorem State.reportEnc_eng (s : State) (c : ErrCode) : (s.reportEnc c).eng = s.eng := rfl
@[simp] theorem State.reportEnc_dma (s : State) (c : ErrCode) : (s.reportEnc c).dma = s.dma := rfl
@[simp] theorem State.reportEnc_enc (s : State) (c : ErrCode) : (s.reportEnc c).enc = { s.enc with err := c } := rfl
@[simp] theorem State.reportEnc_win (s : State) (c : ErrCode) : (s.reportEnc c).win = s.win := rfl
@[simp] theorem State.reportEnc_pins (s : State) (c : ErrCode) : (s.reportEnc c).pins = s.pins := rfl
@[simp] theorem State.reportEnc_faults (s : State) (c : ErrCode) : (s.reportEnc c).faults = s.faults := rfl
@[simp] theorem State.reportEnc_refused (s : State) (c : ErrCode) : (s.reportEnc c).refused = s.refused := rfl
@[simp] theorem State.reportEnc_trace (s : State) (c : ErrCode) : (s.reportEnc c).trace = s.trace := rfl
@[simp] theorem State.reportEnc_mem (s : State) (c : ErrCode) : (s.reportEnc c).mem = s.mem := rfl
@[simp] theorem State.reportEnc_host (s : State) (c : ErrCode) : (s.reportEnc c).host = s.host := rfl
@[simp] theorem State.reportEnc_world (s : State) (c : ErrCode) : (s.reportEnc c).world = s.world := rfl

/-! ## `State.reportWin` -/

@[simp] theorem State.reportWin_params (s : State) (c : ErrCode) : (s.reportWin c).params = s.params := rfl
@[simp] theorem State.reportWin_cfg (s : State) (c : ErrCode) : (s.reportWin c).cfg = s.cfg := rfl
@[simp] theorem State.reportWin_pinctl (s : State) (c : ErrCode) : (s.reportWin c).pinctl = s.pinctl := rfl
@[simp] theorem State.reportWin_eng (s : State) (c : ErrCode) : (s.reportWin c).eng = s.eng := rfl
@[simp] theorem State.reportWin_dma (s : State) (c : ErrCode) : (s.reportWin c).dma = s.dma := rfl
@[simp] theorem State.reportWin_enc (s : State) (c : ErrCode) : (s.reportWin c).enc = s.enc := rfl
@[simp] theorem State.reportWin_win (s : State) (c : ErrCode) : (s.reportWin c).win = { s.win with err := c } := rfl
@[simp] theorem State.reportWin_pins (s : State) (c : ErrCode) : (s.reportWin c).pins = s.pins := rfl
@[simp] theorem State.reportWin_faults (s : State) (c : ErrCode) : (s.reportWin c).faults = s.faults := rfl
@[simp] theorem State.reportWin_refused (s : State) (c : ErrCode) : (s.reportWin c).refused = s.refused := rfl
@[simp] theorem State.reportWin_trace (s : State) (c : ErrCode) : (s.reportWin c).trace = s.trace := rfl
@[simp] theorem State.reportWin_mem (s : State) (c : ErrCode) : (s.reportWin c).mem = s.mem := rfl
@[simp] theorem State.reportWin_host (s : State) (c : ErrCode) : (s.reportWin c).host = s.host := rfl
@[simp] theorem State.reportWin_world (s : State) (c : ErrCode) : (s.reportWin c).world = s.world := rfl

/-! ## `State.setTxq` -/

@[simp] theorem State.setTxq_params (s : State) (e : Engine) (q : List Word) : (s.setTxq e q).params = s.params := by
  cases e <;> rfl
@[simp] theorem State.setTxq_cfg (s : State) (e : Engine) (q : List Word) : (s.setTxq e q).cfg = s.cfg := by
  cases e <;> rfl
@[simp] theorem State.setTxq_pinctl (s : State) (e : Engine) (q : List Word) : (s.setTxq e q).pinctl = s.pinctl := by
  cases e <;> rfl
@[simp] theorem State.setTxq_dma (s : State) (e : Engine) (q : List Word) : (s.setTxq e q).dma = s.dma := by
  cases e <;> rfl
@[simp] theorem State.setTxq_enc (s : State) (e : Engine) (q : List Word) : (s.setTxq e q).enc = s.enc := by
  cases e <;> rfl
@[simp] theorem State.setTxq_win (s : State) (e : Engine) (q : List Word) : (s.setTxq e q).win = s.win := by
  cases e <;> rfl
@[simp] theorem State.setTxq_pins (s : State) (e : Engine) (q : List Word) : (s.setTxq e q).pins = s.pins := by
  cases e <;> rfl
@[simp] theorem State.setTxq_faults (s : State) (e : Engine) (q : List Word) : (s.setTxq e q).faults = s.faults := by
  cases e <;> rfl
@[simp] theorem State.setTxq_refused (s : State) (e : Engine) (q : List Word) : (s.setTxq e q).refused = s.refused := by
  cases e <;> rfl
@[simp] theorem State.setTxq_trace (s : State) (e : Engine) (q : List Word) : (s.setTxq e q).trace = s.trace := by
  cases e <;> rfl
@[simp] theorem State.setTxq_mem (s : State) (e : Engine) (q : List Word) : (s.setTxq e q).mem = s.mem := by
  cases e <;> rfl
@[simp] theorem State.setTxq_host (s : State) (e : Engine) (q : List Word) : (s.setTxq e q).host = s.host := by
  cases e <;> rfl
@[simp] theorem State.setTxq_world (s : State) (e : Engine) (q : List Word) : (s.setTxq e q).world = s.world := by
  cases e <;> rfl
@[simp] theorem State.setTxq_enable (s : State) (e : Engine) (q : List Word) :
    (s.setTxq e q).eng.enable = s.eng.enable := by
  cases e <;> rfl
@[simp] theorem State.setTxq_rxq (s : State) (e : Engine) (q : List Word) :
    (s.setTxq e q).eng.rxq = s.eng.rxq := by
  cases e <;> rfl
@[simp] theorem State.setTxq_phase (s : State) (e : Engine) (q : List Word) :
    (s.setTxq e q).eng.phase = s.eng.phase := by
  cases e <;> rfl
/-- The queue written is the queue read; the other three stay. -/
@[simp] theorem State.setTxq_txq (s : State) (e e' : Engine) (q : List Word) :
    (s.setTxq e q).txq e' = if e' = e then q else s.txq e' := by
  cases e <;> cases e' <;> rfl

/-! ## `State.pushTx` -/

@[simp] theorem State.pushTx_params (s : State) (e : Engine) (w : Word) : (s.pushTx e w).params = s.params := State.setTxq_params s _ _
@[simp] theorem State.pushTx_cfg (s : State) (e : Engine) (w : Word) : (s.pushTx e w).cfg = s.cfg := State.setTxq_cfg s _ _
@[simp] theorem State.pushTx_pinctl (s : State) (e : Engine) (w : Word) : (s.pushTx e w).pinctl = s.pinctl := State.setTxq_pinctl s _ _
@[simp] theorem State.pushTx_dma (s : State) (e : Engine) (w : Word) : (s.pushTx e w).dma = s.dma := State.setTxq_dma s _ _
@[simp] theorem State.pushTx_enc (s : State) (e : Engine) (w : Word) : (s.pushTx e w).enc = s.enc := State.setTxq_enc s _ _
@[simp] theorem State.pushTx_win (s : State) (e : Engine) (w : Word) : (s.pushTx e w).win = s.win := State.setTxq_win s _ _
@[simp] theorem State.pushTx_pins (s : State) (e : Engine) (w : Word) : (s.pushTx e w).pins = s.pins := State.setTxq_pins s _ _
@[simp] theorem State.pushTx_faults (s : State) (e : Engine) (w : Word) : (s.pushTx e w).faults = s.faults := State.setTxq_faults s _ _
@[simp] theorem State.pushTx_refused (s : State) (e : Engine) (w : Word) : (s.pushTx e w).refused = s.refused := State.setTxq_refused s _ _
@[simp] theorem State.pushTx_trace (s : State) (e : Engine) (w : Word) : (s.pushTx e w).trace = s.trace := State.setTxq_trace s _ _
@[simp] theorem State.pushTx_mem (s : State) (e : Engine) (w : Word) : (s.pushTx e w).mem = s.mem := State.setTxq_mem s _ _
@[simp] theorem State.pushTx_host (s : State) (e : Engine) (w : Word) : (s.pushTx e w).host = s.host := State.setTxq_host s _ _
@[simp] theorem State.pushTx_world (s : State) (e : Engine) (w : Word) : (s.pushTx e w).world = s.world := State.setTxq_world s _ _
@[simp] theorem State.pushTx_enable (s : State) (e : Engine) (w : Word) : (s.pushTx e w).eng.enable = s.eng.enable := State.setTxq_enable s _ _
@[simp] theorem State.pushTx_rxq (s : State) (e : Engine) (w : Word) : (s.pushTx e w).eng.rxq = s.eng.rxq := State.setTxq_rxq s _ _
@[simp] theorem State.pushTx_phase (s : State) (e : Engine) (w : Word) : (s.pushTx e w).eng.phase = s.eng.phase := State.setTxq_phase s _ _
@[simp] theorem State.pushTx_txq (s : State) (e e' : Engine) (w : Word) :
    (s.pushTx e w).txq e' = if e' = e then s.txq e ++ [w] else s.txq e' := State.setTxq_txq s _ _ _

/-! ## `State.popTx` -/

@[simp] theorem State.popTx_params (s : State) (e : Engine) : (s.popTx e).params = s.params := State.setTxq_params s _ _
@[simp] theorem State.popTx_cfg (s : State) (e : Engine) : (s.popTx e).cfg = s.cfg := State.setTxq_cfg s _ _
@[simp] theorem State.popTx_pinctl (s : State) (e : Engine) : (s.popTx e).pinctl = s.pinctl := State.setTxq_pinctl s _ _
@[simp] theorem State.popTx_dma (s : State) (e : Engine) : (s.popTx e).dma = s.dma := State.setTxq_dma s _ _
@[simp] theorem State.popTx_enc (s : State) (e : Engine) : (s.popTx e).enc = s.enc := State.setTxq_enc s _ _
@[simp] theorem State.popTx_win (s : State) (e : Engine) : (s.popTx e).win = s.win := State.setTxq_win s _ _
@[simp] theorem State.popTx_pins (s : State) (e : Engine) : (s.popTx e).pins = s.pins := State.setTxq_pins s _ _
@[simp] theorem State.popTx_faults (s : State) (e : Engine) : (s.popTx e).faults = s.faults := State.setTxq_faults s _ _
@[simp] theorem State.popTx_refused (s : State) (e : Engine) : (s.popTx e).refused = s.refused := State.setTxq_refused s _ _
@[simp] theorem State.popTx_trace (s : State) (e : Engine) : (s.popTx e).trace = s.trace := State.setTxq_trace s _ _
@[simp] theorem State.popTx_mem (s : State) (e : Engine) : (s.popTx e).mem = s.mem := State.setTxq_mem s _ _
@[simp] theorem State.popTx_host (s : State) (e : Engine) : (s.popTx e).host = s.host := State.setTxq_host s _ _
@[simp] theorem State.popTx_world (s : State) (e : Engine) : (s.popTx e).world = s.world := State.setTxq_world s _ _
@[simp] theorem State.popTx_enable (s : State) (e : Engine) : (s.popTx e).eng.enable = s.eng.enable := State.setTxq_enable s _ _
@[simp] theorem State.popTx_rxq (s : State) (e : Engine) : (s.popTx e).eng.rxq = s.eng.rxq := State.setTxq_rxq s _ _
@[simp] theorem State.popTx_phase (s : State) (e : Engine) : (s.popTx e).eng.phase = s.eng.phase := State.setTxq_phase s _ _
@[simp] theorem State.popTx_txq (s : State) (e e' : Engine) :
    (s.popTx e).txq e' = if e' = e then (s.txq e).tail else s.txq e' := State.setTxq_txq s _ _ _

/-! ## `State.pushRx` -/

@[simp] theorem State.pushRx_params (s : State) (b : Byte) : (s.pushRx b).params = s.params := rfl
@[simp] theorem State.pushRx_cfg (s : State) (b : Byte) : (s.pushRx b).cfg = s.cfg := rfl
@[simp] theorem State.pushRx_pinctl (s : State) (b : Byte) : (s.pushRx b).pinctl = s.pinctl := rfl
@[simp] theorem State.pushRx_eng (s : State) (b : Byte) : (s.pushRx b).eng = { s.eng with rxq := s.eng.rxq ++ [b] } := rfl
@[simp] theorem State.pushRx_dma (s : State) (b : Byte) : (s.pushRx b).dma = s.dma := rfl
@[simp] theorem State.pushRx_enc (s : State) (b : Byte) : (s.pushRx b).enc = s.enc := rfl
@[simp] theorem State.pushRx_win (s : State) (b : Byte) : (s.pushRx b).win = s.win := rfl
@[simp] theorem State.pushRx_pins (s : State) (b : Byte) : (s.pushRx b).pins = s.pins := rfl
@[simp] theorem State.pushRx_faults (s : State) (b : Byte) : (s.pushRx b).faults = s.faults := rfl
@[simp] theorem State.pushRx_refused (s : State) (b : Byte) : (s.pushRx b).refused = s.refused := rfl
@[simp] theorem State.pushRx_trace (s : State) (b : Byte) : (s.pushRx b).trace = s.trace := rfl
@[simp] theorem State.pushRx_mem (s : State) (b : Byte) : (s.pushRx b).mem = s.mem := rfl
@[simp] theorem State.pushRx_host (s : State) (b : Byte) : (s.pushRx b).host = s.host := rfl
@[simp] theorem State.pushRx_world (s : State) (b : Byte) : (s.pushRx b).world = s.world := rfl

/-! ## `State.popRx` -/

@[simp] theorem State.popRx_params (s : State) : (s.popRx).params = s.params := rfl
@[simp] theorem State.popRx_cfg (s : State) : (s.popRx).cfg = s.cfg := rfl
@[simp] theorem State.popRx_pinctl (s : State) : (s.popRx).pinctl = s.pinctl := rfl
@[simp] theorem State.popRx_eng (s : State) : (s.popRx).eng = { s.eng with rxq := s.eng.rxq.tail } := rfl
@[simp] theorem State.popRx_dma (s : State) : (s.popRx).dma = s.dma := rfl
@[simp] theorem State.popRx_enc (s : State) : (s.popRx).enc = s.enc := rfl
@[simp] theorem State.popRx_win (s : State) : (s.popRx).win = s.win := rfl
@[simp] theorem State.popRx_pins (s : State) : (s.popRx).pins = s.pins := rfl
@[simp] theorem State.popRx_faults (s : State) : (s.popRx).faults = s.faults := rfl
@[simp] theorem State.popRx_refused (s : State) : (s.popRx).refused = s.refused := rfl
@[simp] theorem State.popRx_trace (s : State) : (s.popRx).trace = s.trace := rfl
@[simp] theorem State.popRx_mem (s : State) : (s.popRx).mem = s.mem := rfl
@[simp] theorem State.popRx_host (s : State) : (s.popRx).host = s.host := rfl
@[simp] theorem State.popRx_world (s : State) : (s.popRx).world = s.world := rfl

/-! ## `State.setPhase` -/

@[simp] theorem State.setPhase_params (s : State) (p : CdrPhase) : (s.setPhase p).params = s.params := rfl
@[simp] theorem State.setPhase_cfg (s : State) (p : CdrPhase) : (s.setPhase p).cfg = s.cfg := rfl
@[simp] theorem State.setPhase_pinctl (s : State) (p : CdrPhase) : (s.setPhase p).pinctl = s.pinctl := rfl
@[simp] theorem State.setPhase_eng (s : State) (p : CdrPhase) : (s.setPhase p).eng = { s.eng with phase := p } := rfl
@[simp] theorem State.setPhase_dma (s : State) (p : CdrPhase) : (s.setPhase p).dma = s.dma := rfl
@[simp] theorem State.setPhase_enc (s : State) (p : CdrPhase) : (s.setPhase p).enc = s.enc := rfl
@[simp] theorem State.setPhase_win (s : State) (p : CdrPhase) : (s.setPhase p).win = s.win := rfl
@[simp] theorem State.setPhase_pins (s : State) (p : CdrPhase) : (s.setPhase p).pins = s.pins := rfl
@[simp] theorem State.setPhase_faults (s : State) (p : CdrPhase) : (s.setPhase p).faults = s.faults := rfl
@[simp] theorem State.setPhase_refused (s : State) (p : CdrPhase) : (s.setPhase p).refused = s.refused := rfl
@[simp] theorem State.setPhase_trace (s : State) (p : CdrPhase) : (s.setPhase p).trace = s.trace := rfl
@[simp] theorem State.setPhase_mem (s : State) (p : CdrPhase) : (s.setPhase p).mem = s.mem := rfl
@[simp] theorem State.setPhase_host (s : State) (p : CdrPhase) : (s.setPhase p).host = s.host := rfl
@[simp] theorem State.setPhase_world (s : State) (p : CdrPhase) : (s.setPhase p).world = s.world := rfl

/-! ## `State.setEnable` -/

@[simp] theorem State.setEnable_params (s : State) (en : BitVec 4) : (s.setEnable en).params = s.params := rfl
@[simp] theorem State.setEnable_cfg (s : State) (en : BitVec 4) : (s.setEnable en).cfg = s.cfg := rfl
@[simp] theorem State.setEnable_pinctl (s : State) (en : BitVec 4) : (s.setEnable en).pinctl = s.pinctl := rfl
@[simp] theorem State.setEnable_eng (s : State) (en : BitVec 4) : (s.setEnable en).eng = { s.eng with enable := en } := rfl
@[simp] theorem State.setEnable_dma (s : State) (en : BitVec 4) : (s.setEnable en).dma = s.dma := rfl
@[simp] theorem State.setEnable_enc (s : State) (en : BitVec 4) : (s.setEnable en).enc = s.enc := rfl
@[simp] theorem State.setEnable_win (s : State) (en : BitVec 4) : (s.setEnable en).win = s.win := rfl
@[simp] theorem State.setEnable_pins (s : State) (en : BitVec 4) : (s.setEnable en).pins = s.pins := rfl
@[simp] theorem State.setEnable_faults (s : State) (en : BitVec 4) : (s.setEnable en).faults = s.faults := rfl
@[simp] theorem State.setEnable_refused (s : State) (en : BitVec 4) : (s.setEnable en).refused = s.refused := rfl
@[simp] theorem State.setEnable_trace (s : State) (en : BitVec 4) : (s.setEnable en).trace = s.trace := rfl
@[simp] theorem State.setEnable_mem (s : State) (en : BitVec 4) : (s.setEnable en).mem = s.mem := rfl
@[simp] theorem State.setEnable_host (s : State) (en : BitVec 4) : (s.setEnable en).host = s.host := rfl
@[simp] theorem State.setEnable_world (s : State) (en : BitVec 4) : (s.setEnable en).world = s.world := rfl

/-! ## `State.emit` -/

@[simp] theorem State.emit_params (s : State) (ev : BusEvent) : (s.emit ev).params = s.params := rfl
@[simp] theorem State.emit_cfg (s : State) (ev : BusEvent) : (s.emit ev).cfg = s.cfg := rfl
@[simp] theorem State.emit_pinctl (s : State) (ev : BusEvent) : (s.emit ev).pinctl = s.pinctl := rfl
@[simp] theorem State.emit_eng (s : State) (ev : BusEvent) : (s.emit ev).eng = s.eng := rfl
@[simp] theorem State.emit_dma (s : State) (ev : BusEvent) : (s.emit ev).dma = s.dma := rfl
@[simp] theorem State.emit_enc (s : State) (ev : BusEvent) : (s.emit ev).enc = s.enc := rfl
@[simp] theorem State.emit_win (s : State) (ev : BusEvent) : (s.emit ev).win = s.win := rfl
@[simp] theorem State.emit_pins (s : State) (ev : BusEvent) : (s.emit ev).pins = s.pins := rfl
@[simp] theorem State.emit_faults (s : State) (ev : BusEvent) : (s.emit ev).faults = s.faults := rfl
@[simp] theorem State.emit_refused (s : State) (ev : BusEvent) : (s.emit ev).refused = s.refused := rfl
@[simp] theorem State.emit_trace (s : State) (ev : BusEvent) : (s.emit ev).trace = s.trace ++ [ev] := rfl
@[simp] theorem State.emit_mem (s : State) (ev : BusEvent) : (s.emit ev).mem = s.mem := rfl
@[simp] theorem State.emit_host (s : State) (ev : BusEvent) : (s.emit ev).host = s.host := rfl
@[simp] theorem State.emit_world (s : State) (ev : BusEvent) : (s.emit ev).world = s.world := rfl

/-! ## `State.wcycle` -/

@[simp] theorem State.wcycle_params (s : State) (dc : Bool) (d : Byte) : (s.wcycle dc d).params = s.params := rfl
@[simp] theorem State.wcycle_cfg (s : State) (dc : Bool) (d : Byte) : (s.wcycle dc d).cfg = s.cfg := rfl
@[simp] theorem State.wcycle_pinctl (s : State) (dc : Bool) (d : Byte) : (s.wcycle dc d).pinctl = s.pinctl := rfl
@[simp] theorem State.wcycle_eng (s : State) (dc : Bool) (d : Byte) : (s.wcycle dc d).eng = s.eng := rfl
@[simp] theorem State.wcycle_dma (s : State) (dc : Bool) (d : Byte) : (s.wcycle dc d).dma = s.dma := rfl
@[simp] theorem State.wcycle_enc (s : State) (dc : Bool) (d : Byte) : (s.wcycle dc d).enc = s.enc := rfl
@[simp] theorem State.wcycle_win (s : State) (dc : Bool) (d : Byte) : (s.wcycle dc d).win = s.win := rfl
@[simp] theorem State.wcycle_pins (s : State) (dc : Bool) (d : Byte) : (s.wcycle dc d).pins = { s.pins with d := d, dc := dc, wr := true } := rfl
@[simp] theorem State.wcycle_faults (s : State) (dc : Bool) (d : Byte) : (s.wcycle dc d).faults = s.faults := rfl
@[simp] theorem State.wcycle_refused (s : State) (dc : Bool) (d : Byte) : (s.wcycle dc d).refused = s.refused := rfl
@[simp] theorem State.wcycle_trace (s : State) (dc : Bool) (d : Byte) : (s.wcycle dc d).trace = s.trace ++ [.w dc d] := rfl
@[simp] theorem State.wcycle_mem (s : State) (dc : Bool) (d : Byte) : (s.wcycle dc d).mem = s.mem := rfl
@[simp] theorem State.wcycle_host (s : State) (dc : Bool) (d : Byte) : (s.wcycle dc d).host = s.host := rfl
@[simp] theorem State.wcycle_world (s : State) (dc : Bool) (d : Byte) : (s.wcycle dc d).world = s.world := rfl

/-! ## `State.rcycle` -/

@[simp] theorem State.rcycle_params (s : State) (d : Byte) : (s.rcycle d).params = s.params := rfl
@[simp] theorem State.rcycle_cfg (s : State) (d : Byte) : (s.rcycle d).cfg = s.cfg := rfl
@[simp] theorem State.rcycle_pinctl (s : State) (d : Byte) : (s.rcycle d).pinctl = s.pinctl := rfl
@[simp] theorem State.rcycle_eng (s : State) (d : Byte) : (s.rcycle d).eng = s.eng := rfl
@[simp] theorem State.rcycle_dma (s : State) (d : Byte) : (s.rcycle d).dma = s.dma := rfl
@[simp] theorem State.rcycle_enc (s : State) (d : Byte) : (s.rcycle d).enc = s.enc := rfl
@[simp] theorem State.rcycle_win (s : State) (d : Byte) : (s.rcycle d).win = s.win := rfl
@[simp] theorem State.rcycle_pins (s : State) (d : Byte) : (s.rcycle d).pins = { s.pins with dc := true, rd := true } := rfl
@[simp] theorem State.rcycle_faults (s : State) (d : Byte) : (s.rcycle d).faults = s.faults := rfl
@[simp] theorem State.rcycle_refused (s : State) (d : Byte) : (s.rcycle d).refused = s.refused := rfl
@[simp] theorem State.rcycle_trace (s : State) (d : Byte) : (s.rcycle d).trace = s.trace ++ [.rd d] := rfl
@[simp] theorem State.rcycle_mem (s : State) (d : Byte) : (s.rcycle d).mem = s.mem := rfl
@[simp] theorem State.rcycle_host (s : State) (d : Byte) : (s.rcycle d).host = s.host := rfl
@[simp] theorem State.rcycle_world (s : State) (d : Byte) : (s.rcycle d).world = s.world := rfl

/-! ## `State.dirIn` -/

@[simp] theorem State.dirIn_params (s : State) : (s.dirIn).params = s.params := rfl
@[simp] theorem State.dirIn_cfg (s : State) : (s.dirIn).cfg = s.cfg := rfl
@[simp] theorem State.dirIn_pinctl (s : State) : (s.dirIn).pinctl = s.pinctl := rfl
@[simp] theorem State.dirIn_eng (s : State) : (s.dirIn).eng = s.eng := rfl
@[simp] theorem State.dirIn_dma (s : State) : (s.dirIn).dma = s.dma := rfl
@[simp] theorem State.dirIn_enc (s : State) : (s.dirIn).enc = s.enc := rfl
@[simp] theorem State.dirIn_win (s : State) : (s.dirIn).win = s.win := rfl
@[simp] theorem State.dirIn_pins (s : State) : (s.dirIn).pins = { s.pins with dataDir := .inp } := rfl
@[simp] theorem State.dirIn_faults (s : State) : (s.dirIn).faults = s.faults := rfl
@[simp] theorem State.dirIn_refused (s : State) : (s.dirIn).refused = s.refused := rfl
@[simp] theorem State.dirIn_trace (s : State) : (s.dirIn).trace = s.trace ++ [.dirIn] := rfl
@[simp] theorem State.dirIn_mem (s : State) : (s.dirIn).mem = s.mem := rfl
@[simp] theorem State.dirIn_host (s : State) : (s.dirIn).host = s.host := rfl
@[simp] theorem State.dirIn_world (s : State) : (s.dirIn).world = s.world := rfl

/-! ## `State.dirOut` -/

@[simp] theorem State.dirOut_params (s : State) : (s.dirOut).params = s.params := rfl
@[simp] theorem State.dirOut_cfg (s : State) : (s.dirOut).cfg = s.cfg := rfl
@[simp] theorem State.dirOut_pinctl (s : State) : (s.dirOut).pinctl = s.pinctl := rfl
@[simp] theorem State.dirOut_eng (s : State) : (s.dirOut).eng = s.eng := rfl
@[simp] theorem State.dirOut_dma (s : State) : (s.dirOut).dma = s.dma := rfl
@[simp] theorem State.dirOut_enc (s : State) : (s.dirOut).enc = s.enc := rfl
@[simp] theorem State.dirOut_win (s : State) : (s.dirOut).win = s.win := rfl
@[simp] theorem State.dirOut_pins (s : State) : (s.dirOut).pins = { s.pins with dataDir := .out } := rfl
@[simp] theorem State.dirOut_faults (s : State) : (s.dirOut).faults = s.faults := rfl
@[simp] theorem State.dirOut_refused (s : State) : (s.dirOut).refused = s.refused := rfl
@[simp] theorem State.dirOut_trace (s : State) : (s.dirOut).trace = s.trace ++ [.dirOut] := rfl
@[simp] theorem State.dirOut_mem (s : State) : (s.dirOut).mem = s.mem := rfl
@[simp] theorem State.dirOut_host (s : State) : (s.dirOut).host = s.host := rfl
@[simp] theorem State.dirOut_world (s : State) : (s.dirOut).world = s.world := rfl

/-! ## `State.drawn` -/

@[simp] theorem State.drawn_params (s : State) : (s.drawn).params = s.params := rfl
@[simp] theorem State.drawn_cfg (s : State) : (s.drawn).cfg = s.cfg := rfl
@[simp] theorem State.drawn_pinctl (s : State) : (s.drawn).pinctl = s.pinctl := rfl
@[simp] theorem State.drawn_eng (s : State) : (s.drawn).eng = s.eng := rfl
@[simp] theorem State.drawn_dma (s : State) : (s.drawn).dma = s.dma := rfl
@[simp] theorem State.drawn_enc (s : State) : (s.drawn).enc = s.enc := rfl
@[simp] theorem State.drawn_win (s : State) : (s.drawn).win = s.win := rfl
@[simp] theorem State.drawn_pins (s : State) : (s.drawn).pins = s.pins := rfl
@[simp] theorem State.drawn_faults (s : State) : (s.drawn).faults = s.faults := rfl
@[simp] theorem State.drawn_refused (s : State) : (s.drawn).refused = s.refused := rfl
@[simp] theorem State.drawn_trace (s : State) : (s.drawn).trace = s.trace := rfl
@[simp] theorem State.drawn_mem (s : State) : (s.drawn).mem = s.mem := rfl
@[simp] theorem State.drawn_host (s : State) : (s.drawn).host = s.host := rfl
@[simp] theorem State.drawn_world (s : State) : (s.drawn).world = { s.world with device := s.world.device.tail, draws := s.world.draws + 1 } := rfl

/-! ## `State.tick` -/

@[simp] theorem State.tick_params (s : State) : (s.tick).params = s.params := rfl
@[simp] theorem State.tick_cfg (s : State) : (s.tick).cfg = s.cfg := rfl
@[simp] theorem State.tick_pinctl (s : State) : (s.tick).pinctl = s.pinctl := rfl
@[simp] theorem State.tick_eng (s : State) : (s.tick).eng = s.eng := rfl
@[simp] theorem State.tick_dma (s : State) : (s.tick).dma = s.dma := rfl
@[simp] theorem State.tick_enc (s : State) : (s.tick).enc = s.enc := rfl
@[simp] theorem State.tick_win (s : State) : (s.tick).win = s.win := rfl
@[simp] theorem State.tick_pins (s : State) : (s.tick).pins = s.pins := rfl
@[simp] theorem State.tick_faults (s : State) : (s.tick).faults = s.faults := rfl
@[simp] theorem State.tick_refused (s : State) : (s.tick).refused = s.refused := rfl
@[simp] theorem State.tick_trace (s : State) : (s.tick).trace = s.trace := rfl
@[simp] theorem State.tick_mem (s : State) : (s.tick).mem = s.mem := rfl
@[simp] theorem State.tick_host (s : State) : (s.tick).host = s.host := rfl
@[simp] theorem State.tick_world (s : State) : (s.tick).world = { s.world with sched := s.world.sched.tail, clock := s.world.clock + 1 } := rfl

end Sys2Proof.Machine
end

