-- ==== Sys2Proof/Laws/Ops.lean ====
section
/-! SUPPORT. One lemma per shared operation that says everything the operation can do, guards included. -/

namespace Sys2Proof.Machine

/-! ## Outcomes -/

theorem State.raise_cases (s : State) (f : Fault) :
    (f ∈ s.faults ∧ s.raise f = s) ∨ (f ∉ s.faults ∧ s.raise f = { s with faults := s.faults ++ [f] }) := by
  unfold State.raise
  by_cases h : f ∈ s.faults
  · exact .inl ⟨h, if_pos (by simpa using h)⟩
  · exact .inr ⟨h, if_neg (by simpa using h)⟩

/-- In an unfaulted state a fault is the first one. -/
theorem State.raise_of_unfaulted {s : State} (h : s.faults = []) (f : Fault) :
    s.raise f = { s with faults := [f] } := by
  simp [State.raise, h]

/-! ## 41_config -/

theorem State.configWrite_cases (s : State) (c : Cfg) :
    (s.cfg.configured = true ∧ s.configWrite c = s.raise .configLocked) ∨
    (s.cfg.configured = false ∧ s.configWrite c = { s with cfg := c }) := by
  unfold State.configWrite
  cases h : s.cfg.configured <;> simp

theorem State.driveRst_cases (s : State) (old new : Bool) :
    (s.pins.driven = true ∧ new ≠ old ∧
      s.driveRst old new = { s with pins.rst := new, trace := s.trace ++ [.rst new] }) ∨
    ((s.pins.driven = false ∨ new = old) ∧ s.driveRst old new = s) := by
  unfold State.driveRst
  cases h : s.pins.driven <;> by_cases hn : new = old <;> simp [hn, State.emit]

theorem State.driveBl_cases (s : State) (old new : Bool) :
    (s.pins.driven = true ∧ hasBl s.cfg = true ∧ new ≠ old ∧
      s.driveBl old new = { s with pins.bl := new, trace := s.trace ++ [.bl new] }) ∨
    ((s.pins.driven = false ∨ hasBl s.cfg = false ∨ new = old) ∧ s.driveBl old new = s) := by
  unfold State.driveBl
  cases h : s.pins.driven <;> cases hb : hasBl s.cfg <;> by_cases hn : new = old <;> simp [hn, State.emit]

/-! ## 42_engines -/

/-- A host push (R188, R200 to R202, R408). -/
theorem State.hostPush_cases (s : State) (e : Engine) (w : Word) :
    (s.txOwned e = true ∧ s.hostPush e w = s.raise .queueConflict) ∨
    (s.txOwned e = false ∧ s.params.qDepth ≤ (s.txq e).length ∧ s.hostPush e w = s.hold .pushFull) ∨
    (s.txOwned e = false ∧ (s.txq e).length < s.params.qDepth ∧ s.hostPush e w = s.pushTx e w) := by
  unfold State.hostPush State.txFull
  cases s.txOwned e
  · by_cases h : s.params.qDepth ≤ (s.txq e).length
    · simp [h]
    · simp [h, Nat.lt_of_not_le h]
  · simp

/-- Clearing the selected engines, as one update (R187). -/
theorem State.clear_eq (s : State) (sel : BitVec 4) :
    (selected sel).foldl State.clearEngine s =
      { s with
        eng :=
          { s.eng with
            txqCw := if bitAt sel 0 then [] else s.eng.txqCw
            txqDwb := if bitAt sel 1 then [] else s.eng.txqDwb
            txqDwt := if bitAt sel 2 then [] else s.eng.txqDwt
            txqCdr := if bitAt sel 3 then [] else s.eng.txqCdr
            rxq := if bitAt sel 3 then [] else s.eng.rxq
            phase := if bitAt sel 3 then .count else s.eng.phase } } := by
  cases h0 : bitAt sel 0 <;> cases h1 : bitAt sel 1 <;> cases h2 : bitAt sel 2 <;> cases h3 : bitAt sel 3 <;>
    simp [selected, engines, engineIndex, h0, h1, h2, h3, State.clearEngine, State.setTxq]

/-- `cdrTerminate()` (R199). -/
theorem State.cdrTerminate_cases (s : State) :
    (s.eng.phase = .count ∧ s.cdrTerminate = s) ∨
    (∃ n, s.eng.phase = .cmd n ∧ s.cdrTerminate = { s with eng.phase := .count }) ∨
    (∃ k f, s.eng.phase = .read k f ∧
      s.cdrTerminate = { s with pins.dataDir := .out, trace := s.trace ++ [.dirOut], eng.phase := .count }) := by
  unfold State.cdrTerminate
  cases h : s.eng.phase with
  | count => simp
  | cmd n => exact .inr (.inl ⟨n, rfl, rfl⟩)
  | read k f => exact .inr (.inr ⟨k, f, rfl, rfl⟩)

/-! ## 43_dma -/

theorem State.descriptorWrite_cases (s : State) (d : Dma) :
    (s.dma.busy = true ∧ s.descriptorWrite d = s.raise .dmaBusy) ∨
    (s.dma.busy = false ∧ s.descriptorWrite d = { s with dma := d }) := by
  unfold State.descriptorWrite
  cases h : s.dma.busy <;> simp

/-- The end of a submission (R233): the empty transfer, the address error, or the busy channel. -/
theorem State.dmaStart_cases (s : State) :
    (s.dma.count = 0#32 ∧ s.dmaStart = s.reportDma .ok) ∨
    (s.dma.count ≠ 0#32 ∧
      (s.dma.addr.toNat % sizeBytes s.dma.size ≠ 0 ∨ rangeOk s.params (dmaRange s.dma) = false) ∧
      s.dmaStart = s.reportDma .addressError) ∨
    (s.dma.count ≠ 0#32 ∧ s.dma.addr.toNat % sizeBytes s.dma.size = 0 ∧ rangeOk s.params (dmaRange s.dma) = true ∧
      s.dmaStart =
        { s with
          dma :=
            { s.dma with
              lo := (dmaRange s.dma).start, hi := (dmaRange s.dma).start + (dmaRange s.dma).len, err := .ok,
              busy := true, abortPending := false, grace := false } }) := by
  unfold State.dmaStart
  by_cases h0 : s.dma.count = 0#32
  · exact .inl ⟨h0, if_pos h0⟩
  · refine .inr ?_
    rw [if_neg h0]
    by_cases h : s.dma.addr.toNat % sizeBytes s.dma.size ≠ 0 ∨ rangeOk s.params (dmaRange s.dma) = false
    · exact .inl ⟨h0, h, if_pos h⟩
    · refine .inr ⟨h0, ?_, ?_, if_neg h⟩
      · simpa using fun h' => h (.inl h')
      · simpa using fun h' => h (.inr h')

/-- The DMA's unit step (R236): not enabled, a unit into a queue, or a byte out of RXQ. -/
theorem State.dmaUnit_cases (s : State) :
    (s.dmaUnitEnabled = false ∧ s.dmaUnit = s) ∨
    (s.dmaUnitEnabled = true ∧
      s.dmaUnit = (if (s.dmaMove.dmaCountDown).dma.count = 0#32 then s.dmaMove.dmaCountDown.dmaStop
        else s.dmaMove.dmaCountDown)) := by
  unfold State.dmaUnit
  cases h : s.dmaUnitEnabled <;> simp

/-! ## 44_pixel_encoding -/

theorem inMemory_iff (p : Params) (r : Span) : InMemory p r ↔ rangeOk p r = true := (rangeOk_iff p r).symm

theorem sharesByte_iff (r q : Span) : SharesByte r q ↔ r.overlaps q = true := (overlaps_iff r q).symm

/-- The ranges an encoder START admits, as bytes (R83). -/
theorem State.encRangesOk_iff (s : State) (inputs : List Span) (dst : Span) :
    s.encRangesOk inputs dst = true ↔ ∀ r ∈ dst :: inputs, InMemory s.params r := by
  simp only [State.encRangesOk, List.all_eq_true]
  exact forall₂_congr fun r _ => (inMemory_iff s.params r).symm

/-- The ownership check, as bytes shared (R90 cases c and d, R305). -/
theorem State.encRace_iff (s : State) (inputs : List Span) (dst : Span) :
    s.encRace inputs dst = true ↔ EncRaces s inputs dst := by
  simp only [State.encRace, EncRaces, sharesByte_iff, Bool.or_eq_true, Bool.and_eq_true, List.any_eq_true,
    decide_eq_true_eq]
  rfl

/-- An operation is admitted exactly when both checks pass. -/
theorem State.encAdmits_iff (s : State) (inputs : List Span) (dst : Span) :
    EncAdmits s inputs dst ↔ s.encRangesOk inputs dst = true ∧ s.encRace inputs dst = false := by
  rw [EncAdmits, ← State.encRangesOk_iff, ← State.encRace_iff, Bool.not_eq_true]

/-- `startEncoder()` (R271, R408). -/
theorem State.startEncoder_cases (s : State) (job : EncJob) :
    (job.formatOk = false ∧ s.startEncoder job = s.reportEnc .unsupportedPixelFormat) ∨
    (job.formatOk = true ∧ s.encRangesOk job.inputs job.dst = false ∧ s.startEncoder job = s.reportEnc .addressError) ∨
    (job.formatOk = true ∧ s.encRangesOk job.inputs job.dst = true ∧ s.encRace job.inputs job.dst = true ∧
      s.startEncoder job = s.raise .bufferRace) ∨
    (job.formatOk = true ∧ s.encRangesOk job.inputs job.dst = true ∧ s.encRace job.inputs job.dst = false ∧
      job.paletteOk = false ∧ s.startEncoder job = s.reportEnc .paletteRange) ∨
    (job.formatOk = true ∧ s.encRangesOk job.inputs job.dst = true ∧ s.encRace job.inputs job.dst = false ∧
      job.paletteOk = true ∧
      s.startEncoder job =
        { s with mem := s.mem.fill job.dst.start job.out job.dst.len, enc := { s.enc with err := .ok } }) := by
  unfold State.startEncoder
  cases job.formatOk <;> cases s.encRangesOk job.inputs job.dst <;> cases s.encRace job.inputs job.dst <;>
    cases job.paletteOk <;> simp [State.reportEnc]

/-! ## 45_window -/

theorem State.windowWrite_cases (s : State) (w : Win) :
    (s.winBusy = true ∧ s.windowWrite w = s.raise .windowBusy) ∨
    (s.winBusy = false ∧ s.windowWrite w = { s with win := w }) := by
  unfold State.windowWrite
  cases h : s.winBusy <;> simp

/-- The end of a START (R322). -/
theorem State.winStart_cases (s : State) :
    ((s.dma.busy = true ∧ s.dma.qsel = .tx .cw) ∧ s.winStart = s.raise .queueConflict) ∨
    (¬(s.dma.busy = true ∧ s.dma.qsel = .tx .cw) ∧ windowInvalid s.win = true ∧
      s.winStart = s.reportWin .invalidWindow) ∨
    (¬(s.dma.busy = true ∧ s.dma.qsel = .tx .cw) ∧ windowInvalid s.win = false ∧
      s.winStart = { s with win := { s.win with pending := winUnits s.win, err := .ok } }) := by
  unfold State.winStart
  by_cases h : s.dma.busy = true ∧ s.dma.qsel = .tx .cw
  · exact .inl ⟨h, if_pos h⟩
  · rw [if_neg h]
    cases hi : windowInvalid s.win
    · exact .inr (.inr ⟨h, rfl, rfl⟩)
    · exact .inr (.inl ⟨h, rfl, rfl⟩)

/-- The window sequencer's step (R333). -/
theorem State.winStep_cases (s : State) :
    ((s.win.pending = [] ∨ s.params.qDepth ≤ s.eng.txqCw.length) ∧ s.winStep = s) ∨
    (∃ u rest, s.win.pending = u :: rest ∧ s.eng.txqCw.length < s.params.qDepth ∧
      s.winStep =
        { s with win.pending := rest, eng.txqCw := s.eng.txqCw ++ [u.zeroExtend 32] }) := by
  unfold State.winStep
  cases h : s.win.pending with
  | nil => simp
  | cons u rest =>
    by_cases hf : s.params.qDepth ≤ s.eng.txqCw.length
    · exact .inl ⟨.inr hf, by simp [State.txFull, State.txq, hf]⟩
    · refine .inr ⟨u, rest, rfl, by omega, ?_⟩
      simp [State.txFull, State.txq, hf, State.pushTx, State.setTxq]

/-! ## Codes and checks -/

theorem errByte_toNat (c : ErrCode) : (errByte c).toNat = errNumber c := by cases c <;> rfl

/-- The reserved SIZE and QSEL values (R233). -/
theorem dmaFields_reserved (size : BitVec 2) (qsel : BitVec 3)
    (h : size = 3#2 ∨ 5 ≤ qsel.toNat ∨ (qsel = 4#3 ∧ size ≠ 0#2)) : dmaFields size qsel = none := by
  revert size qsel; decide

/-- The SIZE and QSEL values that are stored, what they stand for and how they read (R49, R247). -/
theorem dmaFields_stored (size : BitVec 2) (qsel : BitVec 3)
    (h : ¬(size = 3#2 ∨ 5 ≤ qsel.toNat ∨ (qsel = 4#3 ∧ size ≠ 0#2))) :
    ∃ sz q, dmaFields size qsel = some (sz, q) ∧ sizeBits sz = size ∧ sizeBytes sz = 2 ^ size.toNat ∧
      qselBits q = qsel ∧ (∀ e, q = .tx e ↔ qsel.toNat = engineIndex e) ∧ (q = .rx ↔ qsel = 4#3) := by
  have all : ∀ (size : BitVec 2) (qsel : BitVec 3), ¬(size = 3#2 ∨ 5 ≤ qsel.toNat ∨ (qsel = 4#3 ∧ size ≠ 0#2)) →
      ((dmaFields size qsel).any fun x =>
        decide (sizeBits x.1 = size ∧ sizeBytes x.1 = 2 ^ size.toNat ∧ qselBits x.2 = qsel ∧
          (∀ e ∈ engines, x.2 = .tx e ↔ qsel.toNat = engineIndex e) ∧ (x.2 = .rx ↔ qsel = 4#3))) = true := by decide
  have := all size qsel h
  cases hx : dmaFields size qsel with
  | none => simp [hx] at this
  | some x =>
    obtain ⟨h1, h2, h3, h4, h5⟩ : sizeBits x.1 = size ∧ sizeBytes x.1 = 2 ^ size.toNat ∧ qselBits x.2 = qsel ∧
        (∀ e ∈ engines, x.2 = .tx e ↔ qsel.toNat = engineIndex e) ∧ (x.2 = .rx ↔ qsel = 4#3) := by
      rw [hx] at this
      exact of_decide_eq_true this
    exact ⟨x.1, x.2, rfl, h1, h2, h3, fun e => h4 e (by cases e <;> decide), h5⟩

/-- The enable sets that pass the popcount check of R181. -/
theorem popcount4_iff (b : BitVec 4) : 1 < popcount4 b ↔ b ∉ [0#4, 1#4, 2#4, 4#4, 8#4] := by
  revert b; decide

theorem hasRepeat_iff (l : List Nat) : hasRepeat l = true ↔ ¬l.Nodup := by
  induction l with
  | nil => simp [hasRepeat]
  | cons a l ih => simp [hasRepeat, ih]; grind

/-- An encoder START whose format and ranges are admitted: the palette check decides between the report and the
transform (R271). -/
theorem State.startEncoder_admitted (s : State) (op bpp : BitVec 4) (mode : BitVec 2) (tdir : Bool) (job : EncJob)
    (hf : job.formatOk = true) (ha : EncAdmits s job.inputs job.dst) :
    (s.encStore op bpp mode tdir).startEncoder job =
      if job.paletteOk = true then
        { s with mem := s.mem.fill job.dst.start job.out job.dst.len, enc := encAfter s op bpp mode tdir .ok }
      else { s with enc := encAfter s op bpp mode tdir .paletteRange } := by
  obtain ⟨ok, race⟩ := (s.encAdmits_iff job.inputs job.dst).1 ha
  have ok' : (s.encStore op bpp mode tdir).encRangesOk job.inputs job.dst = true := ok
  have race' : (s.encStore op bpp mode tdir).encRace job.inputs job.dst = false := race
  unfold State.startEncoder
  rw [if_neg (by simp [hf]), if_neg (by simp [ok']), if_neg (by simp [race'])]
  by_cases h : job.paletteOk = true <;> simp [h] <;> rfl

end Sys2Proof.Machine
end

