-- ==== Sys2Proof/Laws/Frames.lean ====
section
/-! SUPPORT. The frame of each shared operation: one lemma per component of the state that the operation leaves alone. -/

namespace Sys2Proof.Machine

@[simp] theorem State.configWrite_params (s : State) (c : Cfg) : (s.configWrite c).params = s.params := by
  unfold State.configWrite; repeat' split
  all_goals simp
@[simp] theorem State.configWrite_pinctl (s : State) (c : Cfg) : (s.configWrite c).pinctl = s.pinctl := by
  unfold State.configWrite; repeat' split
  all_goals simp
@[simp] theorem State.configWrite_eng (s : State) (c : Cfg) : (s.configWrite c).eng = s.eng := by
  unfold State.configWrite; repeat' split
  all_goals simp
@[simp] theorem State.configWrite_dma (s : State) (c : Cfg) : (s.configWrite c).dma = s.dma := by
  unfold State.configWrite; repeat' split
  all_goals simp
@[simp] theorem State.configWrite_enc (s : State) (c : Cfg) : (s.configWrite c).enc = s.enc := by
  unfold State.configWrite; repeat' split
  all_goals simp
@[simp] theorem State.configWrite_win (s : State) (c : Cfg) : (s.configWrite c).win = s.win := by
  unfold State.configWrite; repeat' split
  all_goals simp
@[simp] theorem State.configWrite_pins (s : State) (c : Cfg) : (s.configWrite c).pins = s.pins := by
  unfold State.configWrite; repeat' split
  all_goals simp
@[simp] theorem State.configWrite_refused (s : State) (c : Cfg) : (s.configWrite c).refused = s.refused := by
  unfold State.configWrite; repeat' split
  all_goals simp
@[simp] theorem State.configWrite_trace (s : State) (c : Cfg) : (s.configWrite c).trace = s.trace := by
  unfold State.configWrite; repeat' split
  all_goals simp
@[simp] theorem State.configWrite_mem (s : State) (c : Cfg) : (s.configWrite c).mem = s.mem := by
  unfold State.configWrite; repeat' split
  all_goals simp
@[simp] theorem State.configWrite_host (s : State) (c : Cfg) : (s.configWrite c).host = s.host := by
  unfold State.configWrite; repeat' split
  all_goals simp
@[simp] theorem State.configWrite_world (s : State) (c : Cfg) : (s.configWrite c).world = s.world := by
  unfold State.configWrite; repeat' split
  all_goals simp

@[simp] theorem State.initialised_params (s : State) : (s.initialised).params = s.params := rfl
@[simp] theorem State.initialised_eng (s : State) : (s.initialised).eng = s.eng := rfl
@[simp] theorem State.initialised_dma (s : State) : (s.initialised).dma = s.dma := rfl
@[simp] theorem State.initialised_enc (s : State) : (s.initialised).enc = s.enc := rfl
@[simp] theorem State.initialised_win (s : State) : (s.initialised).win = s.win := rfl
@[simp] theorem State.initialised_faults (s : State) : (s.initialised).faults = s.faults := rfl
@[simp] theorem State.initialised_refused (s : State) : (s.initialised).refused = s.refused := rfl
@[simp] theorem State.initialised_mem (s : State) : (s.initialised).mem = s.mem := rfl
@[simp] theorem State.initialised_host (s : State) : (s.initialised).host = s.host := rfl
@[simp] theorem State.initialised_world (s : State) : (s.initialised).world = s.world := rfl

@[simp] theorem State.driveRst_params (s : State) (a b : Bool) : (s.driveRst a b).params = s.params := by
  unfold State.driveRst; repeat' split
  all_goals simp
@[simp] theorem State.driveRst_cfg (s : State) (a b : Bool) : (s.driveRst a b).cfg = s.cfg := by
  unfold State.driveRst; repeat' split
  all_goals simp
@[simp] theorem State.driveRst_pinctl (s : State) (a b : Bool) : (s.driveRst a b).pinctl = s.pinctl := by
  unfold State.driveRst; repeat' split
  all_goals simp
@[simp] theorem State.driveRst_eng (s : State) (a b : Bool) : (s.driveRst a b).eng = s.eng := by
  unfold State.driveRst; repeat' split
  all_goals simp
@[simp] theorem State.driveRst_dma (s : State) (a b : Bool) : (s.driveRst a b).dma = s.dma := by
  unfold State.driveRst; repeat' split
  all_goals simp
@[simp] theorem State.driveRst_enc (s : State) (a b : Bool) : (s.driveRst a b).enc = s.enc := by
  unfold State.driveRst; repeat' split
  all_goals simp
@[simp] theorem State.driveRst_win (s : State) (a b : Bool) : (s.driveRst a b).win = s.win := by
  unfold State.driveRst; repeat' split
  all_goals simp
@[simp] theorem State.driveRst_faults (s : State) (a b : Bool) : (s.driveRst a b).faults = s.faults := by
  unfold State.driveRst; repeat' split
  all_goals simp
@[simp] theorem State.driveRst_refused (s : State) (a b : Bool) : (s.driveRst a b).refused = s.refused := by
  unfold State.driveRst; repeat' split
  all_goals simp
@[simp] theorem State.driveRst_mem (s : State) (a b : Bool) : (s.driveRst a b).mem = s.mem := by
  unfold State.driveRst; repeat' split
  all_goals simp
@[simp] theorem State.driveRst_host (s : State) (a b : Bool) : (s.driveRst a b).host = s.host := by
  unfold State.driveRst; repeat' split
  all_goals simp
@[simp] theorem State.driveRst_world (s : State) (a b : Bool) : (s.driveRst a b).world = s.world := by
  unfold State.driveRst; repeat' split
  all_goals simp

@[simp] theorem State.driveBl_params (s : State) (a b : Bool) : (s.driveBl a b).params = s.params := by
  unfold State.driveBl; repeat' split
  all_goals simp
@[simp] theorem State.driveBl_cfg (s : State) (a b : Bool) : (s.driveBl a b).cfg = s.cfg := by
  unfold State.driveBl; repeat' split
  all_goals simp
@[simp] theorem State.driveBl_pinctl (s : State) (a b : Bool) : (s.driveBl a b).pinctl = s.pinctl := by
  unfold State.driveBl; repeat' split
  all_goals simp
@[simp] theorem State.driveBl_eng (s : State) (a b : Bool) : (s.driveBl a b).eng = s.eng := by
  unfold State.driveBl; repeat' split
  all_goals simp
@[simp] theorem State.driveBl_dma (s : State) (a b : Bool) : (s.driveBl a b).dma = s.dma := by
  unfold State.driveBl; repeat' split
  all_goals simp
@[simp] theorem State.driveBl_enc (s : State) (a b : Bool) : (s.driveBl a b).enc = s.enc := by
  unfold State.driveBl; repeat' split
  all_goals simp
@[simp] theorem State.driveBl_win (s : State) (a b : Bool) : (s.driveBl a b).win = s.win := by
  unfold State.driveBl; repeat' split
  all_goals simp
@[simp] theorem State.driveBl_faults (s : State) (a b : Bool) : (s.driveBl a b).faults = s.faults := by
  unfold State.driveBl; repeat' split
  all_goals simp
@[simp] theorem State.driveBl_refused (s : State) (a b : Bool) : (s.driveBl a b).refused = s.refused := by
  unfold State.driveBl; repeat' split
  all_goals simp
@[simp] theorem State.driveBl_mem (s : State) (a b : Bool) : (s.driveBl a b).mem = s.mem := by
  unfold State.driveBl; repeat' split
  all_goals simp
@[simp] theorem State.driveBl_host (s : State) (a b : Bool) : (s.driveBl a b).host = s.host := by
  unfold State.driveBl; repeat' split
  all_goals simp
@[simp] theorem State.driveBl_world (s : State) (a b : Bool) : (s.driveBl a b).world = s.world := by
  unfold State.driveBl; repeat' split
  all_goals simp

@[simp] theorem State.hostPush_params (s : State) (e : Engine) (w : Word) : (s.hostPush e w).params = s.params := by
  unfold State.hostPush; repeat' split
  all_goals simp
@[simp] theorem State.hostPush_cfg (s : State) (e : Engine) (w : Word) : (s.hostPush e w).cfg = s.cfg := by
  unfold State.hostPush; repeat' split
  all_goals simp
@[simp] theorem State.hostPush_pinctl (s : State) (e : Engine) (w : Word) : (s.hostPush e w).pinctl = s.pinctl := by
  unfold State.hostPush; repeat' split
  all_goals simp
@[simp] theorem State.hostPush_dma (s : State) (e : Engine) (w : Word) : (s.hostPush e w).dma = s.dma := by
  unfold State.hostPush; repeat' split
  all_goals simp
@[simp] theorem State.hostPush_enc (s : State) (e : Engine) (w : Word) : (s.hostPush e w).enc = s.enc := by
  unfold State.hostPush; repeat' split
  all_goals simp
@[simp] theorem State.hostPush_win (s : State) (e : Engine) (w : Word) : (s.hostPush e w).win = s.win := by
  unfold State.hostPush; repeat' split
  all_goals simp
@[simp] theorem State.hostPush_pins (s : State) (e : Engine) (w : Word) : (s.hostPush e w).pins = s.pins := by
  unfold State.hostPush; repeat' split
  all_goals simp
@[simp] theorem State.hostPush_refused (s : State) (e : Engine) (w : Word) : (s.hostPush e w).refused = s.refused := by
  unfold State.hostPush; repeat' split
  all_goals simp
@[simp] theorem State.hostPush_trace (s : State) (e : Engine) (w : Word) : (s.hostPush e w).trace = s.trace := by
  unfold State.hostPush; repeat' split
  all_goals simp
@[simp] theorem State.hostPush_mem (s : State) (e : Engine) (w : Word) : (s.hostPush e w).mem = s.mem := by
  unfold State.hostPush; repeat' split
  all_goals simp
@[simp] theorem State.hostPush_world (s : State) (e : Engine) (w : Word) : (s.hostPush e w).world = s.world := by
  unfold State.hostPush; repeat' split
  all_goals simp

@[simp] theorem State.cdrTerminate_params (s : State) : (s.cdrTerminate).params = s.params := by
  unfold State.cdrTerminate; repeat' split
  all_goals simp
@[simp] theorem State.cdrTerminate_cfg (s : State) : (s.cdrTerminate).cfg = s.cfg := by
  unfold State.cdrTerminate; repeat' split
  all_goals simp
@[simp] theorem State.cdrTerminate_pinctl (s : State) : (s.cdrTerminate).pinctl = s.pinctl := by
  unfold State.cdrTerminate; repeat' split
  all_goals simp
@[simp] theorem State.cdrTerminate_dma (s : State) : (s.cdrTerminate).dma = s.dma := by
  unfold State.cdrTerminate; repeat' split
  all_goals simp
@[simp] theorem State.cdrTerminate_enc (s : State) : (s.cdrTerminate).enc = s.enc := by
  unfold State.cdrTerminate; repeat' split
  all_goals simp
@[simp] theorem State.cdrTerminate_win (s : State) : (s.cdrTerminate).win = s.win := by
  unfold State.cdrTerminate; repeat' split
  all_goals simp
@[simp] theorem State.cdrTerminate_faults (s : State) : (s.cdrTerminate).faults = s.faults := by
  unfold State.cdrTerminate; repeat' split
  all_goals simp
@[simp] theorem State.cdrTerminate_refused (s : State) : (s.cdrTerminate).refused = s.refused := by
  unfold State.cdrTerminate; repeat' split
  all_goals simp
@[simp] theorem State.cdrTerminate_mem (s : State) : (s.cdrTerminate).mem = s.mem := by
  unfold State.cdrTerminate; repeat' split
  all_goals simp
@[simp] theorem State.cdrTerminate_host (s : State) : (s.cdrTerminate).host = s.host := by
  unfold State.cdrTerminate; repeat' split
  all_goals simp
@[simp] theorem State.cdrTerminate_world (s : State) : (s.cdrTerminate).world = s.world := by
  unfold State.cdrTerminate; repeat' split
  all_goals simp

@[simp] theorem State.cdrRestore_params (s : State) : (s.cdrRestore).params = s.params := rfl
@[simp] theorem State.cdrRestore_cfg (s : State) : (s.cdrRestore).cfg = s.cfg := rfl
@[simp] theorem State.cdrRestore_pinctl (s : State) : (s.cdrRestore).pinctl = s.pinctl := rfl
@[simp] theorem State.cdrRestore_dma (s : State) : (s.cdrRestore).dma = s.dma := rfl
@[simp] theorem State.cdrRestore_enc (s : State) : (s.cdrRestore).enc = s.enc := rfl
@[simp] theorem State.cdrRestore_win (s : State) : (s.cdrRestore).win = s.win := rfl
@[simp] theorem State.cdrRestore_faults (s : State) : (s.cdrRestore).faults = s.faults := rfl
@[simp] theorem State.cdrRestore_refused (s : State) : (s.cdrRestore).refused = s.refused := rfl
@[simp] theorem State.cdrRestore_mem (s : State) : (s.cdrRestore).mem = s.mem := rfl
@[simp] theorem State.cdrRestore_host (s : State) : (s.cdrRestore).host = s.host := rfl
@[simp] theorem State.cdrRestore_world (s : State) : (s.cdrRestore).world = s.world := rfl

@[simp] theorem State.descriptorWrite_params (s : State) (d : Dma) : (s.descriptorWrite d).params = s.params := by
  unfold State.descriptorWrite; repeat' split
  all_goals simp
@[simp] theorem State.descriptorWrite_cfg (s : State) (d : Dma) : (s.descriptorWrite d).cfg = s.cfg := by
  unfold State.descriptorWrite; repeat' split
  all_goals simp
@[simp] theorem State.descriptorWrite_pinctl (s : State) (d : Dma) : (s.descriptorWrite d).pinctl = s.pinctl := by
  unfold State.descriptorWrite; repeat' split
  all_goals simp
@[simp] theorem State.descriptorWrite_eng (s : State) (d : Dma) : (s.descriptorWrite d).eng = s.eng := by
  unfold State.descriptorWrite; repeat' split
  all_goals simp
@[simp] theorem State.descriptorWrite_enc (s : State) (d : Dma) : (s.descriptorWrite d).enc = s.enc := by
  unfold State.descriptorWrite; repeat' split
  all_goals simp
@[simp] theorem State.descriptorWrite_win (s : State) (d : Dma) : (s.descriptorWrite d).win = s.win := by
  unfold State.descriptorWrite; repeat' split
  all_goals simp
@[simp] theorem State.descriptorWrite_pins (s : State) (d : Dma) : (s.descriptorWrite d).pins = s.pins := by
  unfold State.descriptorWrite; repeat' split
  all_goals simp
@[simp] theorem State.descriptorWrite_refused (s : State) (d : Dma) : (s.descriptorWrite d).refused = s.refused := by
  unfold State.descriptorWrite; repeat' split
  all_goals simp
@[simp] theorem State.descriptorWrite_trace (s : State) (d : Dma) : (s.descriptorWrite d).trace = s.trace := by
  unfold State.descriptorWrite; repeat' split
  all_goals simp
@[simp] theorem State.descriptorWrite_mem (s : State) (d : Dma) : (s.descriptorWrite d).mem = s.mem := by
  unfold State.descriptorWrite; repeat' split
  all_goals simp
@[simp] theorem State.descriptorWrite_host (s : State) (d : Dma) : (s.descriptorWrite d).host = s.host := by
  unfold State.descriptorWrite; repeat' split
  all_goals simp
@[simp] theorem State.descriptorWrite_world (s : State) (d : Dma) : (s.descriptorWrite d).world = s.world := by
  unfold State.descriptorWrite; repeat' split
  all_goals simp

@[simp] theorem State.dmaStart_params (s : State) : (s.dmaStart).params = s.params := by
  unfold State.dmaStart; repeat' split
  all_goals simp
@[simp] theorem State.dmaStart_cfg (s : State) : (s.dmaStart).cfg = s.cfg := by
  unfold State.dmaStart; repeat' split
  all_goals simp
@[simp] theorem State.dmaStart_pinctl (s : State) : (s.dmaStart).pinctl = s.pinctl := by
  unfold State.dmaStart; repeat' split
  all_goals simp
@[simp] theorem State.dmaStart_eng (s : State) : (s.dmaStart).eng = s.eng := by
  unfold State.dmaStart; repeat' split
  all_goals simp
@[simp] theorem State.dmaStart_enc (s : State) : (s.dmaStart).enc = s.enc := by
  unfold State.dmaStart; repeat' split
  all_goals simp
@[simp] theorem State.dmaStart_win (s : State) : (s.dmaStart).win = s.win := by
  unfold State.dmaStart; repeat' split
  all_goals simp
@[simp] theorem State.dmaStart_pins (s : State) : (s.dmaStart).pins = s.pins := by
  unfold State.dmaStart; repeat' split
  all_goals simp
@[simp] theorem State.dmaStart_faults (s : State) : (s.dmaStart).faults = s.faults := by
  unfold State.dmaStart; repeat' split
  all_goals simp
@[simp] theorem State.dmaStart_refused (s : State) : (s.dmaStart).refused = s.refused := by
  unfold State.dmaStart; repeat' split
  all_goals simp
@[simp] theorem State.dmaStart_trace (s : State) : (s.dmaStart).trace = s.trace := by
  unfold State.dmaStart; repeat' split
  all_goals simp
@[simp] theorem State.dmaStart_mem (s : State) : (s.dmaStart).mem = s.mem := by
  unfold State.dmaStart; repeat' split
  all_goals simp
@[simp] theorem State.dmaStart_host (s : State) : (s.dmaStart).host = s.host := by
  unfold State.dmaStart; repeat' split
  all_goals simp
@[simp] theorem State.dmaStart_world (s : State) : (s.dmaStart).world = s.world := by
  unfold State.dmaStart; repeat' split
  all_goals simp

@[simp] theorem State.dmaStop_params (s : State) : (s.dmaStop).params = s.params := rfl
@[simp] theorem State.dmaStop_cfg (s : State) : (s.dmaStop).cfg = s.cfg := rfl
@[simp] theorem State.dmaStop_pinctl (s : State) : (s.dmaStop).pinctl = s.pinctl := rfl
@[simp] theorem State.dmaStop_eng (s : State) : (s.dmaStop).eng = s.eng := rfl
@[simp] theorem State.dmaStop_enc (s : State) : (s.dmaStop).enc = s.enc := rfl
@[simp] theorem State.dmaStop_win (s : State) : (s.dmaStop).win = s.win := rfl
@[simp] theorem State.dmaStop_pins (s : State) : (s.dmaStop).pins = s.pins := rfl
@[simp] theorem State.dmaStop_faults (s : State) : (s.dmaStop).faults = s.faults := rfl
@[simp] theorem State.dmaStop_refused (s : State) : (s.dmaStop).refused = s.refused := rfl
@[simp] theorem State.dmaStop_trace (s : State) : (s.dmaStop).trace = s.trace := rfl
@[simp] theorem State.dmaStop_mem (s : State) : (s.dmaStop).mem = s.mem := rfl
@[simp] theorem State.dmaStop_host (s : State) : (s.dmaStop).host = s.host := rfl
@[simp] theorem State.dmaStop_world (s : State) : (s.dmaStop).world = s.world := rfl

@[simp] theorem State.dmaCountDown_params (s : State) : (s.dmaCountDown).params = s.params := rfl
@[simp] theorem State.dmaCountDown_cfg (s : State) : (s.dmaCountDown).cfg = s.cfg := rfl
@[simp] theorem State.dmaCountDown_pinctl (s : State) : (s.dmaCountDown).pinctl = s.pinctl := rfl
@[simp] theorem State.dmaCountDown_eng (s : State) : (s.dmaCountDown).eng = s.eng := rfl
@[simp] theorem State.dmaCountDown_enc (s : State) : (s.dmaCountDown).enc = s.enc := rfl
@[simp] theorem State.dmaCountDown_win (s : State) : (s.dmaCountDown).win = s.win := rfl
@[simp] theorem State.dmaCountDown_pins (s : State) : (s.dmaCountDown).pins = s.pins := rfl
@[simp] theorem State.dmaCountDown_faults (s : State) : (s.dmaCountDown).faults = s.faults := rfl
@[simp] theorem State.dmaCountDown_refused (s : State) : (s.dmaCountDown).refused = s.refused := rfl
@[simp] theorem State.dmaCountDown_trace (s : State) : (s.dmaCountDown).trace = s.trace := rfl
@[simp] theorem State.dmaCountDown_mem (s : State) : (s.dmaCountDown).mem = s.mem := rfl
@[simp] theorem State.dmaCountDown_host (s : State) : (s.dmaCountDown).host = s.host := rfl
@[simp] theorem State.dmaCountDown_world (s : State) : (s.dmaCountDown).world = s.world := rfl

@[simp] theorem State.dmaMove_params (s : State) : (s.dmaMove).params = s.params := by
  unfold State.dmaMove; repeat' split
  all_goals simp
@[simp] theorem State.dmaMove_cfg (s : State) : (s.dmaMove).cfg = s.cfg := by
  unfold State.dmaMove; repeat' split
  all_goals simp
@[simp] theorem State.dmaMove_pinctl (s : State) : (s.dmaMove).pinctl = s.pinctl := by
  unfold State.dmaMove; repeat' split
  all_goals simp
@[simp] theorem State.dmaMove_dma (s : State) : (s.dmaMove).dma = s.dma := by
  unfold State.dmaMove; repeat' split
  all_goals simp
@[simp] theorem State.dmaMove_enc (s : State) : (s.dmaMove).enc = s.enc := by
  unfold State.dmaMove; repeat' split
  all_goals simp
@[simp] theorem State.dmaMove_win (s : State) : (s.dmaMove).win = s.win := by
  unfold State.dmaMove; repeat' split
  all_goals simp
@[simp] theorem State.dmaMove_pins (s : State) : (s.dmaMove).pins = s.pins := by
  unfold State.dmaMove; repeat' split
  all_goals simp
@[simp] theorem State.dmaMove_faults (s : State) : (s.dmaMove).faults = s.faults := by
  unfold State.dmaMove; repeat' split
  all_goals simp
@[simp] theorem State.dmaMove_refused (s : State) : (s.dmaMove).refused = s.refused := by
  unfold State.dmaMove; repeat' split
  all_goals simp
@[simp] theorem State.dmaMove_trace (s : State) : (s.dmaMove).trace = s.trace := by
  unfold State.dmaMove; repeat' split
  all_goals simp
@[simp] theorem State.dmaMove_host (s : State) : (s.dmaMove).host = s.host := by
  unfold State.dmaMove; repeat' split
  all_goals simp
@[simp] theorem State.dmaMove_world (s : State) : (s.dmaMove).world = s.world := by
  unfold State.dmaMove; repeat' split
  all_goals simp

@[simp] theorem State.dmaUnit_params (s : State) : (s.dmaUnit).params = s.params := by
  unfold State.dmaUnit; split
  · simp only; split <;> simp
  · rfl
@[simp] theorem State.dmaUnit_cfg (s : State) : (s.dmaUnit).cfg = s.cfg := by
  unfold State.dmaUnit; split
  · simp only; split <;> simp
  · rfl
@[simp] theorem State.dmaUnit_pinctl (s : State) : (s.dmaUnit).pinctl = s.pinctl := by
  unfold State.dmaUnit; split
  · simp only; split <;> simp
  · rfl
@[simp] theorem State.dmaUnit_enc (s : State) : (s.dmaUnit).enc = s.enc := by
  unfold State.dmaUnit; split
  · simp only; split <;> simp
  · rfl
@[simp] theorem State.dmaUnit_win (s : State) : (s.dmaUnit).win = s.win := by
  unfold State.dmaUnit; split
  · simp only; split <;> simp
  · rfl
@[simp] theorem State.dmaUnit_pins (s : State) : (s.dmaUnit).pins = s.pins := by
  unfold State.dmaUnit; split
  · simp only; split <;> simp
  · rfl
@[simp] theorem State.dmaUnit_faults (s : State) : (s.dmaUnit).faults = s.faults := by
  unfold State.dmaUnit; split
  · simp only; split <;> simp
  · rfl
@[simp] theorem State.dmaUnit_refused (s : State) : (s.dmaUnit).refused = s.refused := by
  unfold State.dmaUnit; split
  · simp only; split <;> simp
  · rfl
@[simp] theorem State.dmaUnit_trace (s : State) : (s.dmaUnit).trace = s.trace := by
  unfold State.dmaUnit; split
  · simp only; split <;> simp
  · rfl
@[simp] theorem State.dmaUnit_host (s : State) : (s.dmaUnit).host = s.host := by
  unfold State.dmaUnit; split
  · simp only; split <;> simp
  · rfl
@[simp] theorem State.dmaUnit_world (s : State) : (s.dmaUnit).world = s.world := by
  unfold State.dmaUnit; split
  · simp only; split <;> simp
  · rfl

@[simp] theorem State.dmaAck_params (s : State) : (s.dmaAck).params = s.params := by
  unfold State.dmaAck; repeat' split
  all_goals simp
@[simp] theorem State.dmaAck_cfg (s : State) : (s.dmaAck).cfg = s.cfg := by
  unfold State.dmaAck; repeat' split
  all_goals simp
@[simp] theorem State.dmaAck_pinctl (s : State) : (s.dmaAck).pinctl = s.pinctl := by
  unfold State.dmaAck; repeat' split
  all_goals simp
@[simp] theorem State.dmaAck_eng (s : State) : (s.dmaAck).eng = s.eng := by
  unfold State.dmaAck; repeat' split
  all_goals simp
@[simp] theorem State.dmaAck_enc (s : State) : (s.dmaAck).enc = s.enc := by
  unfold State.dmaAck; repeat' split
  all_goals simp
@[simp] theorem State.dmaAck_win (s : State) : (s.dmaAck).win = s.win := by
  unfold State.dmaAck; repeat' split
  all_goals simp
@[simp] theorem State.dmaAck_pins (s : State) : (s.dmaAck).pins = s.pins := by
  unfold State.dmaAck; repeat' split
  all_goals simp
@[simp] theorem State.dmaAck_faults (s : State) : (s.dmaAck).faults = s.faults := by
  unfold State.dmaAck; repeat' split
  all_goals simp
@[simp] theorem State.dmaAck_refused (s : State) : (s.dmaAck).refused = s.refused := by
  unfold State.dmaAck; repeat' split
  all_goals simp
@[simp] theorem State.dmaAck_trace (s : State) : (s.dmaAck).trace = s.trace := by
  unfold State.dmaAck; repeat' split
  all_goals simp
@[simp] theorem State.dmaAck_mem (s : State) : (s.dmaAck).mem = s.mem := by
  unfold State.dmaAck; repeat' split
  all_goals simp
@[simp] theorem State.dmaAck_host (s : State) : (s.dmaAck).host = s.host := by
  unfold State.dmaAck; repeat' split
  all_goals simp
@[simp] theorem State.dmaAck_world (s : State) : (s.dmaAck).world = s.world := by
  unfold State.dmaAck; repeat' split
  all_goals simp

@[simp] theorem State.encStore_params (s : State) (op bpp : BitVec 4) (mode : BitVec 2) (tdir : Bool) : (s.encStore op bpp mode tdir).params = s.params := rfl
@[simp] theorem State.encStore_cfg (s : State) (op bpp : BitVec 4) (mode : BitVec 2) (tdir : Bool) : (s.encStore op bpp mode tdir).cfg = s.cfg := rfl
@[simp] theorem State.encStore_pinctl (s : State) (op bpp : BitVec 4) (mode : BitVec 2) (tdir : Bool) : (s.encStore op bpp mode tdir).pinctl = s.pinctl := rfl
@[simp] theorem State.encStore_eng (s : State) (op bpp : BitVec 4) (mode : BitVec 2) (tdir : Bool) : (s.encStore op bpp mode tdir).eng = s.eng := rfl
@[simp] theorem State.encStore_dma (s : State) (op bpp : BitVec 4) (mode : BitVec 2) (tdir : Bool) : (s.encStore op bpp mode tdir).dma = s.dma := rfl
@[simp] theorem State.encStore_win (s : State) (op bpp : BitVec 4) (mode : BitVec 2) (tdir : Bool) : (s.encStore op bpp mode tdir).win = s.win := rfl
@[simp] theorem State.encStore_pins (s : State) (op bpp : BitVec 4) (mode : BitVec 2) (tdir : Bool) : (s.encStore op bpp mode tdir).pins = s.pins := rfl
@[simp] theorem State.encStore_faults (s : State) (op bpp : BitVec 4) (mode : BitVec 2) (tdir : Bool) : (s.encStore op bpp mode tdir).faults = s.faults := rfl
@[simp] theorem State.encStore_refused (s : State) (op bpp : BitVec 4) (mode : BitVec 2) (tdir : Bool) : (s.encStore op bpp mode tdir).refused = s.refused := rfl
@[simp] theorem State.encStore_trace (s : State) (op bpp : BitVec 4) (mode : BitVec 2) (tdir : Bool) : (s.encStore op bpp mode tdir).trace = s.trace := rfl
@[simp] theorem State.encStore_mem (s : State) (op bpp : BitVec 4) (mode : BitVec 2) (tdir : Bool) : (s.encStore op bpp mode tdir).mem = s.mem := rfl
@[simp] theorem State.encStore_host (s : State) (op bpp : BitVec 4) (mode : BitVec 2) (tdir : Bool) : (s.encStore op bpp mode tdir).host = s.host := rfl
@[simp] theorem State.encStore_world (s : State) (op bpp : BitVec 4) (mode : BitVec 2) (tdir : Bool) : (s.encStore op bpp mode tdir).world = s.world := rfl

@[simp] theorem State.startEncoder_params (s : State) (job : EncJob) : (s.startEncoder job).params = s.params := by
  unfold State.startEncoder; repeat' split
  all_goals simp
@[simp] theorem State.startEncoder_cfg (s : State) (job : EncJob) : (s.startEncoder job).cfg = s.cfg := by
  unfold State.startEncoder; repeat' split
  all_goals simp
@[simp] theorem State.startEncoder_pinctl (s : State) (job : EncJob) : (s.startEncoder job).pinctl = s.pinctl := by
  unfold State.startEncoder; repeat' split
  all_goals simp
@[simp] theorem State.startEncoder_eng (s : State) (job : EncJob) : (s.startEncoder job).eng = s.eng := by
  unfold State.startEncoder; repeat' split
  all_goals simp
@[simp] theorem State.startEncoder_dma (s : State) (job : EncJob) : (s.startEncoder job).dma = s.dma := by
  unfold State.startEncoder; repeat' split
  all_goals simp
@[simp] theorem State.startEncoder_win (s : State) (job : EncJob) : (s.startEncoder job).win = s.win := by
  unfold State.startEncoder; repeat' split
  all_goals simp
@[simp] theorem State.startEncoder_pins (s : State) (job : EncJob) : (s.startEncoder job).pins = s.pins := by
  unfold State.startEncoder; repeat' split
  all_goals simp
@[simp] theorem State.startEncoder_refused (s : State) (job : EncJob) : (s.startEncoder job).refused = s.refused := by
  unfold State.startEncoder; repeat' split
  all_goals simp
@[simp] theorem State.startEncoder_trace (s : State) (job : EncJob) : (s.startEncoder job).trace = s.trace := by
  unfold State.startEncoder; repeat' split
  all_goals simp
@[simp] theorem State.startEncoder_host (s : State) (job : EncJob) : (s.startEncoder job).host = s.host := by
  unfold State.startEncoder; repeat' split
  all_goals simp
@[simp] theorem State.startEncoder_world (s : State) (job : EncJob) : (s.startEncoder job).world = s.world := by
  unfold State.startEncoder; repeat' split
  all_goals simp

@[simp] theorem State.windowWrite_params (s : State) (w : Win) : (s.windowWrite w).params = s.params := by
  unfold State.windowWrite; repeat' split
  all_goals simp
@[simp] theorem State.windowWrite_cfg (s : State) (w : Win) : (s.windowWrite w).cfg = s.cfg := by
  unfold State.windowWrite; repeat' split
  all_goals simp
@[simp] theorem State.windowWrite_pinctl (s : State) (w : Win) : (s.windowWrite w).pinctl = s.pinctl := by
  unfold State.windowWrite; repeat' split
  all_goals simp
@[simp] theorem State.windowWrite_eng (s : State) (w : Win) : (s.windowWrite w).eng = s.eng := by
  unfold State.windowWrite; repeat' split
  all_goals simp
@[simp] theorem State.windowWrite_dma (s : State) (w : Win) : (s.windowWrite w).dma = s.dma := by
  unfold State.windowWrite; repeat' split
  all_goals simp
@[simp] theorem State.windowWrite_enc (s : State) (w : Win) : (s.windowWrite w).enc = s.enc := by
  unfold State.windowWrite; repeat' split
  all_goals simp
@[simp] theorem State.windowWrite_pins (s : State) (w : Win) : (s.windowWrite w).pins = s.pins := by
  unfold State.windowWrite; repeat' split
  all_goals simp
@[simp] theorem State.windowWrite_refused (s : State) (w : Win) : (s.windowWrite w).refused = s.refused := by
  unfold State.windowWrite; repeat' split
  all_goals simp
@[simp] theorem State.windowWrite_trace (s : State) (w : Win) : (s.windowWrite w).trace = s.trace := by
  unfold State.windowWrite; repeat' split
  all_goals simp
@[simp] theorem State.windowWrite_mem (s : State) (w : Win) : (s.windowWrite w).mem = s.mem := by
  unfold State.windowWrite; repeat' split
  all_goals simp
@[simp] theorem State.windowWrite_host (s : State) (w : Win) : (s.windowWrite w).host = s.host := by
  unfold State.windowWrite; repeat' split
  all_goals simp
@[simp] theorem State.windowWrite_world (s : State) (w : Win) : (s.windowWrite w).world = s.world := by
  unfold State.windowWrite; repeat' split
  all_goals simp

@[simp] theorem State.winStart_params (s : State) : (s.winStart).params = s.params := by
  unfold State.winStart; repeat' split
  all_goals simp
@[simp] theorem State.winStart_cfg (s : State) : (s.winStart).cfg = s.cfg := by
  unfold State.winStart; repeat' split
  all_goals simp
@[simp] theorem State.winStart_pinctl (s : State) : (s.winStart).pinctl = s.pinctl := by
  unfold State.winStart; repeat' split
  all_goals simp
@[simp] theorem State.winStart_eng (s : State) : (s.winStart).eng = s.eng := by
  unfold State.winStart; repeat' split
  all_goals simp
@[simp] theorem State.winStart_dma (s : State) : (s.winStart).dma = s.dma := by
  unfold State.winStart; repeat' split
  all_goals simp
@[simp] theorem State.winStart_enc (s : State) : (s.winStart).enc = s.enc := by
  unfold State.winStart; repeat' split
  all_goals simp
@[simp] theorem State.winStart_pins (s : State) : (s.winStart).pins = s.pins := by
  unfold State.winStart; repeat' split
  all_goals simp
@[simp] theorem State.winStart_refused (s : State) : (s.winStart).refused = s.refused := by
  unfold State.winStart; repeat' split
  all_goals simp
@[simp] theorem State.winStart_trace (s : State) : (s.winStart).trace = s.trace := by
  unfold State.winStart; repeat' split
  all_goals simp
@[simp] theorem State.winStart_mem (s : State) : (s.winStart).mem = s.mem := by
  unfold State.winStart; repeat' split
  all_goals simp
@[simp] theorem State.winStart_host (s : State) : (s.winStart).host = s.host := by
  unfold State.winStart; repeat' split
  all_goals simp
@[simp] theorem State.winStart_world (s : State) : (s.winStart).world = s.world := by
  unfold State.winStart; repeat' split
  all_goals simp

@[simp] theorem State.winStep_params (s : State) : (s.winStep).params = s.params := by
  unfold State.winStep; repeat' split
  all_goals simp
@[simp] theorem State.winStep_cfg (s : State) : (s.winStep).cfg = s.cfg := by
  unfold State.winStep; repeat' split
  all_goals simp
@[simp] theorem State.winStep_pinctl (s : State) : (s.winStep).pinctl = s.pinctl := by
  unfold State.winStep; repeat' split
  all_goals simp
@[simp] theorem State.winStep_dma (s : State) : (s.winStep).dma = s.dma := by
  unfold State.winStep; repeat' split
  all_goals simp
@[simp] theorem State.winStep_enc (s : State) : (s.winStep).enc = s.enc := by
  unfold State.winStep; repeat' split
  all_goals simp
@[simp] theorem State.winStep_pins (s : State) : (s.winStep).pins = s.pins := by
  unfold State.winStep; repeat' split
  all_goals simp
@[simp] theorem State.winStep_faults (s : State) : (s.winStep).faults = s.faults := by
  unfold State.winStep; repeat' split
  all_goals simp
@[simp] theorem State.winStep_refused (s : State) : (s.winStep).refused = s.refused := by
  unfold State.winStep; repeat' split
  all_goals simp
@[simp] theorem State.winStep_trace (s : State) : (s.winStep).trace = s.trace := by
  unfold State.winStep; repeat' split
  all_goals simp
@[simp] theorem State.winStep_mem (s : State) : (s.winStep).mem = s.mem := by
  unfold State.winStep; repeat' split
  all_goals simp
@[simp] theorem State.winStep_host (s : State) : (s.winStep).host = s.host := by
  unfold State.winStep; repeat' split
  all_goals simp
@[simp] theorem State.winStep_world (s : State) : (s.winStep).world = s.world := by
  unfold State.winStep; repeat' split
  all_goals simp

end Sys2Proof.Machine
end

