-- ==== Sys2Proof/Laws/PerInstr.lean ====
section
/-! SUPPORT. The family `RowMatch`: for each constructor, that its encoding lies under its own row of
spec/opcode_table.json (the match and mask columns, copied from the table). -/

namespace Sys2Proof.Laws

/-- The match and mask of the constructor's row; `none` for the rows that are no access word (queue units, R120 to R124,
and host pseudo-operations, R131). -/
def tableRow (i : Instr) : Option (AccessWord × AccessWord) :=
  match i with
  | .wCfgPins _ _ _ _ => some (0x100000000000#48, 0xFFFF00000000#48)
  | .rCfgPins => some (0x000000000000#48, 0xFFFFFFFFFFFF#48)
  | .wCfgPins2 _ _ => some (0x100400000000#48, 0xFFFF00000000#48)
  | .rCfgPins2 => some (0x000400000000#48, 0xFFFFFFFFFFFF#48)
  | .wCfgWclk _ => some (0x100800000000#48, 0xFFFF00000000#48)
  | .rCfgWclk => some (0x000800000000#48, 0xFFFFFFFFFFFF#48)
  | .wCfgRclk _ => some (0x100C00000000#48, 0xFFFF00000000#48)
  | .rCfgRclk => some (0x000C00000000#48, 0xFFFFFFFFFFFF#48)
  | .wCfgCtrlInit => some (0x101000000001#48, 0xFFFF00000001#48)
  | .wCfgCtrlNop => some (0x101000000000#48, 0xFFFF00000001#48)
  | .rCfgStatus => some (0x001400000000#48, 0xFFFFFFFFFFFF#48)
  | .rTxLimit => some (0x001800000000#48, 0xFFFFFFFFFFFF#48)
  | .rRxLimit => some (0x001C00000000#48, 0xFFFFFFFFFFFF#48)
  | .wPinctl _ _ => some (0x102000000000#48, 0xFFFF00000000#48)
  | .rPinctl => some (0x002000000000#48, 0xFFFFFFFFFFFF#48)
  | .wEngEnable _ => some (0x104000000000#48, 0xFFFF00000000#48)
  | .rEngEnable => some (0x004000000000#48, 0xFFFFFFFFFFFF#48)
  | .rEngIdle => some (0x004400000000#48, 0xFFFFFFFFFFFF#48)
  | .wEngClear _ => some (0x104800000000#48, 0xFFFF00000000#48)
  | .rTxLevel => some (0x004C00000000#48, 0xFFFFFFFFFFFF#48)
  | .rRxLevel => some (0x005000000000#48, 0xFFFFFFFFFFFF#48)
  | .wTxqCw _ => some (0x106000000000#48, 0xFFFF00000000#48)
  | .wTxqDwb _ => some (0x106400000000#48, 0xFFFF00000000#48)
  | .wTxqDwt _ => some (0x106800000000#48, 0xFFFF00000000#48)
  | .wTxqCdr _ => some (0x106C00000000#48, 0xFFFF00000000#48)
  | .rRxqCdr => some (0x007000000000#48, 0xFFFFFFFFFFFF#48)
  | .wDmaAddr _ => some (0x108000000000#48, 0xFFFF00000000#48)
  | .rDmaAddr => some (0x008000000000#48, 0xFFFFFFFFFFFF#48)
  | .wDmaCount _ => some (0x108400000000#48, 0xFFFF00000000#48)
  | .rDmaCount => some (0x008400000000#48, 0xFFFFFFFFFFFF#48)
  | .wDmaCtrlSubmit _ _ _ => some (0x108800000001#48, 0xFFFF00000001#48)
  | .wDmaCtrlSet _ _ _ => some (0x108800000000#48, 0xFFFF00000001#48)
  | .rDmaCtrl => some (0x008800000000#48, 0xFFFFFFFFFFFF#48)
  | .wDmaAbort _ => some (0x108C00000000#48, 0xFFFF00000000#48)
  | .rDmaAbort => some (0x008C00000000#48, 0xFFFFFFFFFFFF#48)
  | .wEncSrc _ => some (0x10C000000000#48, 0xFFFF00000000#48)
  | .rEncSrc => some (0x00C000000000#48, 0xFFFFFFFFFFFF#48)
  | .wEncDst _ => some (0x10C400000000#48, 0xFFFF00000000#48)
  | .rEncDst => some (0x00C400000000#48, 0xFFFFFFFFFFFF#48)
  | .wEncCount _ => some (0x10C800000000#48, 0xFFFF00000000#48)
  | .rEncCount => some (0x00C800000000#48, 0xFFFFFFFFFFFF#48)
  | .wEncPal _ => some (0x10CC00000000#48, 0xFFFF00000000#48)
  | .rEncPal => some (0x00CC00000000#48, 0xFFFFFFFFFFFF#48)
  | .wEncPalLen _ => some (0x10D000000000#48, 0xFFFF00000000#48)
  | .rEncPalLen => some (0x00D000000000#48, 0xFFFFFFFFFFFF#48)
  | .wEncFg _ _ _ => some (0x10D400000000#48, 0xFFFF00000000#48)
  | .rEncFg => some (0x00D400000000#48, 0xFFFFFFFFFFFF#48)
  | .wEncBg _ _ _ => some (0x10D800000000#48, 0xFFFF00000000#48)
  | .rEncBg => some (0x00D800000000#48, 0xFFFFFFFFFFFF#48)
  | .wEncDim _ _ => some (0x10DC00000000#48, 0xFFFF00000000#48)
  | .rEncDim => some (0x00DC00000000#48, 0xFFFFFFFFFFFF#48)
  | .wEncCtrlSet _ _ _ _ => some (0x10E000000000#48, 0xFFFF80000000#48)
  | .wEncCtrlRgb565 _ _ _ => some (0x10E080000000#48, 0xFFFF8000000F#48)
  | .wEncCtrlIndexed _ _ _ => some (0x10E080000001#48, 0xFFFF8000000F#48)
  | .wEncCtrlGlyph _ _ _ => some (0x10E080000002#48, 0xFFFF8000000F#48)
  | .wEncCtrlBitrev _ _ _ => some (0x10E080000003#48, 0xFFFF8000000F#48)
  | .wEncCtrlTranspose _ _ _ => some (0x10E080000004#48, 0xFFFF8000000F#48)
  | .wEncCtrlReserved1 _ _ _ => some (0x10E080000005#48, 0xFFFF8000000F#48)
  | .wEncCtrlReserved2 _ _ _ _ => some (0x10E080000006#48, 0xFFFF8000000E#48)
  | .wEncCtrlReserved3 _ _ _ _ => some (0x10E080000008#48, 0xFFFF80000008#48)
  | .rEncCtrl => some (0x00E000000000#48, 0xFFFFFFFFFFFF#48)
  | .rEncStatus => some (0x00E400000000#48, 0xFFFFFFFFFFFF#48)
  | .wWinX _ _ => some (0x110000000000#48, 0xFFFF00000000#48)
  | .rWinX => some (0x010000000000#48, 0xFFFFFFFFFFFF#48)
  | .wWinY _ _ => some (0x110400000000#48, 0xFFFF00000000#48)
  | .rWinY => some (0x010400000000#48, 0xFFFFFFFFFFFF#48)
  | .wWinCtrlStart _ => some (0x110880000000#48, 0xFFFF80000000#48)
  | .wWinCtrlSet _ => some (0x110800000000#48, 0xFFFF80000000#48)
  | .rWinCtrl => some (0x010800000000#48, 0xFFFFFFFFFFFF#48)
  | .wWinCmd _ _ _ => some (0x110C00000000#48, 0xFFFF00000000#48)
  | .rWinCmd => some (0x010C00000000#48, 0xFFFFFFFFFFFF#48)
  | .rWinStatus => some (0x011000000000#48, 0xFFFFFFFFFFFF#48)
  | .qunitCw _ _ => none
  | .qunitDwb _ => none
  | .qunitDwt _ _ _ => none
  | .qunitCdrCount _ => none
  | .qunitCdrCmd _ => none
  | .qunitRx _ => none
  | .memw _ _ _ => none
  | .memr _ _ => none
  | .delay _ => none

/-- The encoding of a well-formed instruction has its row's fixed bits; a row without an access word has none. -/
def RowMatch.Statement (i : Instr) : Prop :=
  WellFormed i = true →
    match tableRow i with
    | some (m, k) => ∃ w, encode i = .access w ∧ w &&& k = m
    | none => ∀ w, encode i ≠ .access w

/-- A write word under a mask that keeps the upper 16 bits. -/
theorem writeWord_and (r : Reg) (d k m : Word) (K M : AccessWord) (hK : K = 0xFFFF#16 ++ k)
    (hM : writeWord r m = M) (h : d &&& k = m) : writeWord r d &&& K = M := by
  subst hK hM h
  have hi : (0#3 ++ 1#1 ++ r.offset) &&& 0xFFFF#16 = 0#3 ++ 1#1 ++ r.offset := by cases r <;> decide
  exact (BitVec.and_append (w := 16) (v := 32)).trans (congrArg (· ++ (d &&& k)) hi)

/-- ENC_CTRL data of a START under a mask that keeps START and some OP bits. -/
theorem encCtrlData_and (op bpp k : BitVec 4) (mode : BitVec 2) (tdir : Bool) (K : Word)
    (hK : K = 1#1 ++ 0#20 ++ 0#1 ++ 0#2 ++ 0#4 ++ k) :
    encCtrlData true op bpp mode tdir &&& K = encCtrlData true (op &&& k) 0#4 0#2 false := by
  subst hK
  unfold encCtrlData
  refine (BitVec.and_append (w := 28) (v := 4)).trans (congrArg (· ++ (op &&& k)) ?_)
  revert bpp mode tdir; decide

/-- ENC_CTRL data without START, under START. -/
theorem encCtrlSet_and (op bpp : BitVec 4) (mode : BitVec 2) (tdir : Bool) :
    encCtrlData false op bpp mode tdir &&& 0x80000000#32 = 0#32 := by
  revert op bpp mode tdir; decide

/-- DMA_CTRL data under EN. -/
theorem dmaCtrlData_and (en : Bool) (size : BitVec 2) (incr : Bool) (qsel : BitVec 3) :
    dmaCtrlData en size incr qsel &&& 1#32 = 0#31 ++ BitVec.ofBool en := by
  revert en size incr qsel; decide

/-- WIN_CTRL data under START. -/
theorem winCtrlData_and (start orient : Bool) :
    winCtrlData start orient &&& 0x80000000#32 = BitVec.ofBool start ++ 0#31 := by
  revert start orient; decide

theorem reserved2_op (op : BitVec 4) {bpp : BitVec 4} {mode : BitVec 2} {tdir : Bool}
    (h : WellFormed (.wEncCtrlReserved2 op bpp mode tdir) = true) : op &&& 0xE#4 = 6#4 := by
  revert h; simp only [WellFormed]; revert op; decide

theorem reserved3_op (op : BitVec 4) {bpp : BitVec 4} {mode : BitVec 2} {tdir : Bool}
    (h : WellFormed (.wEncCtrlReserved3 op bpp mode tdir) = true) : op &&& 8#4 = 8#4 := by
  revert h; simp only [WellFormed]; revert op; decide

theorem RowMatch.wCfgPins (dataBase : Byte) (pinDc : Byte) (pinWr : Byte) (pinRd : Byte) : RowMatch.Statement (.wCfgPins dataBase pinDc pinWr pinRd) :=
  fun _ => ⟨_, rfl, writeWord_and .cfgPins _ 0x0#32 0x0#32 _ _ (by decide) (by decide) (by simp)⟩
theorem RowMatch.rCfgPins : RowMatch.Statement (.rCfgPins) :=
  fun _ => ⟨_, rfl, by decide⟩
theorem RowMatch.wCfgPins2 (pinRst : Byte) (pinBl : Byte) : RowMatch.Statement (.wCfgPins2 pinRst pinBl) :=
  fun _ => ⟨_, rfl, writeWord_and .cfgPins2 _ 0x0#32 0x0#32 _ _ (by decide) (by decide) (by simp)⟩
theorem RowMatch.rCfgPins2 : RowMatch.Statement (.rCfgPins2) :=
  fun _ => ⟨_, rfl, by decide⟩
theorem RowMatch.wCfgWclk (hz : Word) : RowMatch.Statement (.wCfgWclk hz) :=
  fun _ => ⟨_, rfl, writeWord_and .cfgWclk _ 0x0#32 0x0#32 _ _ (by decide) (by decide) (by simp)⟩
theorem RowMatch.rCfgWclk : RowMatch.Statement (.rCfgWclk) :=
  fun _ => ⟨_, rfl, by decide⟩
theorem RowMatch.wCfgRclk (hz : Word) : RowMatch.Statement (.wCfgRclk hz) :=
  fun _ => ⟨_, rfl, writeWord_and .cfgRclk _ 0x0#32 0x0#32 _ _ (by decide) (by decide) (by simp)⟩
theorem RowMatch.rCfgRclk : RowMatch.Statement (.rCfgRclk) :=
  fun _ => ⟨_, rfl, by decide⟩
theorem RowMatch.wCfgCtrlInit : RowMatch.Statement (.wCfgCtrlInit) :=
  fun _ => ⟨_, rfl, writeWord_and .cfgCtrl _ 0x1#32 0x1#32 _ _ (by decide) (by decide) (by decide)⟩
theorem RowMatch.wCfgCtrlNop : RowMatch.Statement (.wCfgCtrlNop) :=
  fun _ => ⟨_, rfl, writeWord_and .cfgCtrl _ 0x1#32 0x0#32 _ _ (by decide) (by decide) (by decide)⟩
theorem RowMatch.rCfgStatus : RowMatch.Statement (.rCfgStatus) :=
  fun _ => ⟨_, rfl, by decide⟩
theorem RowMatch.rTxLimit : RowMatch.Statement (.rTxLimit) :=
  fun _ => ⟨_, rfl, by decide⟩
theorem RowMatch.rRxLimit : RowMatch.Statement (.rRxLimit) :=
  fun _ => ⟨_, rfl, by decide⟩
theorem RowMatch.wPinctl (rst : Bool) (bl : Bool) : RowMatch.Statement (.wPinctl rst bl) :=
  fun _ => ⟨_, rfl, writeWord_and .pinctl _ 0x0#32 0x0#32 _ _ (by decide) (by decide) (by simp)⟩
theorem RowMatch.rPinctl : RowMatch.Statement (.rPinctl) :=
  fun _ => ⟨_, rfl, by decide⟩
theorem RowMatch.wEngEnable (en : BitVec 4) : RowMatch.Statement (.wEngEnable en) :=
  fun _ => ⟨_, rfl, writeWord_and .engEnable _ 0x0#32 0x0#32 _ _ (by decide) (by decide) (by simp)⟩
theorem RowMatch.rEngEnable : RowMatch.Statement (.rEngEnable) :=
  fun _ => ⟨_, rfl, by decide⟩
theorem RowMatch.rEngIdle : RowMatch.Statement (.rEngIdle) :=
  fun _ => ⟨_, rfl, by decide⟩
theorem RowMatch.wEngClear (sel : BitVec 4) : RowMatch.Statement (.wEngClear sel) :=
  fun _ => ⟨_, rfl, writeWord_and .engClear _ 0x0#32 0x0#32 _ _ (by decide) (by decide) (by simp)⟩
theorem RowMatch.rTxLevel : RowMatch.Statement (.rTxLevel) :=
  fun _ => ⟨_, rfl, by decide⟩
theorem RowMatch.rRxLevel : RowMatch.Statement (.rRxLevel) :=
  fun _ => ⟨_, rfl, by decide⟩
theorem RowMatch.wTxqCw (w : Word) : RowMatch.Statement (.wTxqCw w) :=
  fun _ => ⟨_, rfl, writeWord_and .txqCw _ 0x0#32 0x0#32 _ _ (by decide) (by decide) (by simp)⟩
theorem RowMatch.wTxqDwb (w : Word) : RowMatch.Statement (.wTxqDwb w) :=
  fun _ => ⟨_, rfl, writeWord_and .txqDwb _ 0x0#32 0x0#32 _ _ (by decide) (by decide) (by simp)⟩
theorem RowMatch.wTxqDwt (w : Word) : RowMatch.Statement (.wTxqDwt w) :=
  fun _ => ⟨_, rfl, writeWord_and .txqDwt _ 0x0#32 0x0#32 _ _ (by decide) (by decide) (by simp)⟩
theorem RowMatch.wTxqCdr (w : Word) : RowMatch.Statement (.wTxqCdr w) :=
  fun _ => ⟨_, rfl, writeWord_and .txqCdr _ 0x0#32 0x0#32 _ _ (by decide) (by decide) (by simp)⟩
theorem RowMatch.rRxqCdr : RowMatch.Statement (.rRxqCdr) :=
  fun _ => ⟨_, rfl, by decide⟩
theorem RowMatch.wDmaAddr (addr : Word) : RowMatch.Statement (.wDmaAddr addr) :=
  fun _ => ⟨_, rfl, writeWord_and .dmaAddr _ 0x0#32 0x0#32 _ _ (by decide) (by decide) (by simp)⟩
theorem RowMatch.rDmaAddr : RowMatch.Statement (.rDmaAddr) :=
  fun _ => ⟨_, rfl, by decide⟩
theorem RowMatch.wDmaCount (count : Word) : RowMatch.Statement (.wDmaCount count) :=
  fun _ => ⟨_, rfl, writeWord_and .dmaCount _ 0x0#32 0x0#32 _ _ (by decide) (by decide) (by simp)⟩
theorem RowMatch.rDmaCount : RowMatch.Statement (.rDmaCount) :=
  fun _ => ⟨_, rfl, by decide⟩
theorem RowMatch.wDmaCtrlSubmit (size : BitVec 2) (incr : Bool) (qsel : BitVec 3) : RowMatch.Statement (.wDmaCtrlSubmit size incr qsel) :=
  fun _ => ⟨_, rfl, writeWord_and .dmaCtrl _ 0x1#32 0x1#32 _ _ (by decide) (by decide) (dmaCtrlData_and _ _ _ _)⟩
theorem RowMatch.wDmaCtrlSet (size : BitVec 2) (incr : Bool) (qsel : BitVec 3) : RowMatch.Statement (.wDmaCtrlSet size incr qsel) :=
  fun _ => ⟨_, rfl, writeWord_and .dmaCtrl _ 0x1#32 0x0#32 _ _ (by decide) (by decide) (dmaCtrlData_and _ _ _ _)⟩
theorem RowMatch.rDmaCtrl : RowMatch.Statement (.rDmaCtrl) :=
  fun _ => ⟨_, rfl, by decide⟩
theorem RowMatch.wDmaAbort (abort : Bool) : RowMatch.Statement (.wDmaAbort abort) :=
  fun _ => ⟨_, rfl, writeWord_and .dmaAbort _ 0x0#32 0x0#32 _ _ (by decide) (by decide) (by simp)⟩
theorem RowMatch.rDmaAbort : RowMatch.Statement (.rDmaAbort) :=
  fun _ => ⟨_, rfl, by decide⟩
theorem RowMatch.wEncSrc (addr : Word) : RowMatch.Statement (.wEncSrc addr) :=
  fun _ => ⟨_, rfl, writeWord_and .encSrc _ 0x0#32 0x0#32 _ _ (by decide) (by decide) (by simp)⟩
theorem RowMatch.rEncSrc : RowMatch.Statement (.rEncSrc) :=
  fun _ => ⟨_, rfl, by decide⟩
theorem RowMatch.wEncDst (addr : Word) : RowMatch.Statement (.wEncDst addr) :=
  fun _ => ⟨_, rfl, writeWord_and .encDst _ 0x0#32 0x0#32 _ _ (by decide) (by decide) (by simp)⟩
theorem RowMatch.rEncDst : RowMatch.Statement (.rEncDst) :=
  fun _ => ⟨_, rfl, by decide⟩
theorem RowMatch.wEncCount (count : Word) : RowMatch.Statement (.wEncCount count) :=
  fun _ => ⟨_, rfl, writeWord_and .encCount _ 0x0#32 0x0#32 _ _ (by decide) (by decide) (by simp)⟩
theorem RowMatch.rEncCount : RowMatch.Statement (.rEncCount) :=
  fun _ => ⟨_, rfl, by decide⟩
theorem RowMatch.wEncPal (addr : Word) : RowMatch.Statement (.wEncPal addr) :=
  fun _ => ⟨_, rfl, writeWord_and .encPal _ 0x0#32 0x0#32 _ _ (by decide) (by decide) (by simp)⟩
theorem RowMatch.rEncPal : RowMatch.Statement (.rEncPal) :=
  fun _ => ⟨_, rfl, by decide⟩
theorem RowMatch.wEncPalLen (len : BitVec 9) : RowMatch.Statement (.wEncPalLen len) :=
  fun _ => ⟨_, rfl, writeWord_and .encPalLen _ 0x0#32 0x0#32 _ _ (by decide) (by decide) (by simp)⟩
theorem RowMatch.rEncPalLen : RowMatch.Statement (.rEncPalLen) :=
  fun _ => ⟨_, rfl, by decide⟩
theorem RowMatch.wEncFg (r : Byte) (g : Byte) (b : Byte) : RowMatch.Statement (.wEncFg r g b) :=
  fun _ => ⟨_, rfl, writeWord_and .encFg _ 0x0#32 0x0#32 _ _ (by decide) (by decide) (by simp)⟩
theorem RowMatch.rEncFg : RowMatch.Statement (.rEncFg) :=
  fun _ => ⟨_, rfl, by decide⟩
theorem RowMatch.wEncBg (r : Byte) (g : Byte) (b : Byte) : RowMatch.Statement (.wEncBg r g b) :=
  fun _ => ⟨_, rfl, writeWord_and .encBg _ 0x0#32 0x0#32 _ _ (by decide) (by decide) (by simp)⟩
theorem RowMatch.rEncBg : RowMatch.Statement (.rEncBg) :=
  fun _ => ⟨_, rfl, by decide⟩
theorem RowMatch.wEncDim (width : BitVec 16) (height : BitVec 16) : RowMatch.Statement (.wEncDim width height) :=
  fun _ => ⟨_, rfl, writeWord_and .encDim _ 0x0#32 0x0#32 _ _ (by decide) (by decide) (by simp)⟩
theorem RowMatch.rEncDim : RowMatch.Statement (.rEncDim) :=
  fun _ => ⟨_, rfl, by decide⟩
theorem RowMatch.wEncCtrlSet (op : BitVec 4) (bpp : BitVec 4) (mode : BitVec 2) (tdir : Bool) : RowMatch.Statement (.wEncCtrlSet op bpp mode tdir) :=
  fun _ => ⟨_, rfl, writeWord_and .encCtrl _ 0x80000000#32 0x0#32 _ _ (by decide) (by decide) (encCtrlSet_and _ _ _ _)⟩
theorem RowMatch.wEncCtrlRgb565 (bpp : BitVec 4) (mode : BitVec 2) (tdir : Bool) : RowMatch.Statement (.wEncCtrlRgb565 bpp mode tdir) :=
  fun _ => ⟨_, rfl, writeWord_and .encCtrl _ 0x8000000f#32 0x80000000#32 _ _ (by decide) (by decide) ((encCtrlData_and _ bpp 0xF#4 mode tdir _ (by decide)).trans (by decide))⟩
theorem RowMatch.wEncCtrlIndexed (bpp : BitVec 4) (mode : BitVec 2) (tdir : Bool) : RowMatch.Statement (.wEncCtrlIndexed bpp mode tdir) :=
  fun _ => ⟨_, rfl, writeWord_and .encCtrl _ 0x8000000f#32 0x80000001#32 _ _ (by decide) (by decide) ((encCtrlData_and _ bpp 0xF#4 mode tdir _ (by decide)).trans (by decide))⟩
theorem RowMatch.wEncCtrlGlyph (bpp : BitVec 4) (mode : BitVec 2) (tdir : Bool) : RowMatch.Statement (.wEncCtrlGlyph bpp mode tdir) :=
  fun _ => ⟨_, rfl, writeWord_and .encCtrl _ 0x8000000f#32 0x80000002#32 _ _ (by decide) (by decide) ((encCtrlData_and _ bpp 0xF#4 mode tdir _ (by decide)).trans (by decide))⟩
theorem RowMatch.wEncCtrlBitrev (bpp : BitVec 4) (mode : BitVec 2) (tdir : Bool) : RowMatch.Statement (.wEncCtrlBitrev bpp mode tdir) :=
  fun _ => ⟨_, rfl, writeWord_and .encCtrl _ 0x8000000f#32 0x80000003#32 _ _ (by decide) (by decide) ((encCtrlData_and _ bpp 0xF#4 mode tdir _ (by decide)).trans (by decide))⟩
theorem RowMatch.wEncCtrlTranspose (bpp : BitVec 4) (mode : BitVec 2) (tdir : Bool) : RowMatch.Statement (.wEncCtrlTranspose bpp mode tdir) :=
  fun _ => ⟨_, rfl, writeWord_and .encCtrl _ 0x8000000f#32 0x80000004#32 _ _ (by decide) (by decide) ((encCtrlData_and _ bpp 0xF#4 mode tdir _ (by decide)).trans (by decide))⟩
theorem RowMatch.wEncCtrlReserved1 (bpp : BitVec 4) (mode : BitVec 2) (tdir : Bool) : RowMatch.Statement (.wEncCtrlReserved1 bpp mode tdir) :=
  fun _ => ⟨_, rfl, writeWord_and .encCtrl _ 0x8000000f#32 0x80000005#32 _ _ (by decide) (by decide) ((encCtrlData_and _ bpp 0xF#4 mode tdir _ (by decide)).trans (by decide))⟩
theorem RowMatch.wEncCtrlReserved2 (op : BitVec 4) (bpp : BitVec 4) (mode : BitVec 2) (tdir : Bool) : RowMatch.Statement (.wEncCtrlReserved2 op bpp mode tdir) :=
  fun h => ⟨_, rfl, writeWord_and .encCtrl _ 0x8000000e#32 0x80000006#32 _ _ (by decide) (by decide)
    ((encCtrlData_and op bpp 0xE#4 mode tdir _ (by decide)).trans
      (by rw [reserved2_op op h]; decide))⟩
theorem RowMatch.wEncCtrlReserved3 (op : BitVec 4) (bpp : BitVec 4) (mode : BitVec 2) (tdir : Bool) : RowMatch.Statement (.wEncCtrlReserved3 op bpp mode tdir) :=
  fun h => ⟨_, rfl, writeWord_and .encCtrl _ 0x80000008#32 0x80000008#32 _ _ (by decide) (by decide)
    ((encCtrlData_and op bpp 8#4 mode tdir _ (by decide)).trans
      (by rw [reserved3_op op h]; decide))⟩
theorem RowMatch.rEncCtrl : RowMatch.Statement (.rEncCtrl) :=
  fun _ => ⟨_, rfl, by decide⟩
theorem RowMatch.rEncStatus : RowMatch.Statement (.rEncStatus) :=
  fun _ => ⟨_, rfl, by decide⟩
theorem RowMatch.wWinX (x1 : BitVec 16) (x2 : BitVec 16) : RowMatch.Statement (.wWinX x1 x2) :=
  fun _ => ⟨_, rfl, writeWord_and .winX _ 0x0#32 0x0#32 _ _ (by decide) (by decide) (by simp)⟩
theorem RowMatch.rWinX : RowMatch.Statement (.rWinX) :=
  fun _ => ⟨_, rfl, by decide⟩
theorem RowMatch.wWinY (y1 : BitVec 16) (y2 : BitVec 16) : RowMatch.Statement (.wWinY y1 y2) :=
  fun _ => ⟨_, rfl, writeWord_and .winY _ 0x0#32 0x0#32 _ _ (by decide) (by decide) (by simp)⟩
theorem RowMatch.rWinY : RowMatch.Statement (.rWinY) :=
  fun _ => ⟨_, rfl, by decide⟩
theorem RowMatch.wWinCtrlStart (orient : Bool) : RowMatch.Statement (.wWinCtrlStart orient) :=
  fun _ => ⟨_, rfl, writeWord_and .winCtrl _ 0x80000000#32 0x80000000#32 _ _ (by decide) (by decide) (winCtrlData_and _ _)⟩
theorem RowMatch.wWinCtrlSet (orient : Bool) : RowMatch.Statement (.wWinCtrlSet orient) :=
  fun _ => ⟨_, rfl, writeWord_and .winCtrl _ 0x80000000#32 0x0#32 _ _ (by decide) (by decide) (winCtrlData_and _ _)⟩
theorem RowMatch.rWinCtrl : RowMatch.Statement (.rWinCtrl) :=
  fun _ => ⟨_, rfl, by decide⟩
theorem RowMatch.wWinCmd (col : Byte) (page : Byte) (memwr : Byte) : RowMatch.Statement (.wWinCmd col page memwr) :=
  fun _ => ⟨_, rfl, writeWord_and .winCmd _ 0x0#32 0x0#32 _ _ (by decide) (by decide) (by simp)⟩
theorem RowMatch.rWinCmd : RowMatch.Statement (.rWinCmd) :=
  fun _ => ⟨_, rfl, by decide⟩
theorem RowMatch.rWinStatus : RowMatch.Statement (.rWinStatus) :=
  fun _ => ⟨_, rfl, by decide⟩
theorem RowMatch.qunitCw (dc : Bool) (d : Byte) : RowMatch.Statement (.qunitCw dc d) :=
  fun _ _ h => Encoded.noConfusion h
theorem RowMatch.qunitDwb (d : Byte) : RowMatch.Statement (.qunitDwb d) :=
  fun _ _ h => Encoded.noConfusion h
theorem RowMatch.qunitDwt (a : Byte) (b : Byte) (c : Byte) : RowMatch.Statement (.qunitDwt a b c) :=
  fun _ _ h => Encoded.noConfusion h
theorem RowMatch.qunitCdrCount (n : BitVec 16) : RowMatch.Statement (.qunitCdrCount n) :=
  fun _ _ h => Encoded.noConfusion h
theorem RowMatch.qunitCdrCmd (d : Byte) : RowMatch.Statement (.qunitCdrCmd d) :=
  fun _ _ h => Encoded.noConfusion h
theorem RowMatch.qunitRx (d : Byte) : RowMatch.Statement (.qunitRx d) :=
  fun _ _ h => Encoded.noConfusion h
theorem RowMatch.memw (a : Word) (n : AccessSize) (v : Word) : RowMatch.Statement (.memw a n v) :=
  fun _ _ h => Encoded.noConfusion h
theorem RowMatch.memr (a : Word) (n : AccessSize) : RowMatch.Statement (.memr a n) :=
  fun _ _ h => Encoded.noConfusion h
theorem RowMatch.delay (t : Nat) : RowMatch.Statement (.delay t) :=
  fun _ _ h => Encoded.noConfusion h

end Sys2Proof.Laws
end

