-- ==== Sys2Proof/Machine/Assembler.lean ====
section
/-! DEFINITION. The assembler syntax of a host program (30_encoding R128) and its pseudo-instructions (R129). -/

namespace Sys2Proof.Machine

/-- `W <REG>, <value>` (R128). -/
def asmW (r : Reg) (v : Word) : HostOp := .access (writeWord r v)

/-- `R <REG>` (R128). -/
def asmR (r : Reg) : HostOp := .access (readWord r)

/-- `CMD c` (R129). -/
def asmCmd (c : Word) : List HostOp := [asmW .txqCw (c &&& 0xFF#32)]

/-- `CWD d` (R129). -/
def asmCwd (d : Word) : List HostOp := [asmW .txqCw (0x100#32 ||| (d &&& 0xFF#32))]

/-- `DB d` (R129). -/
def asmDb (d : Word) : List HostOp := [asmW .txqDwb (d &&& 0xFF#32)]

/-- `DT rgb` (R129). -/
def asmDt (rgb : Word) : List HostOp := [asmW .txqDwt (rgb &&& 0xFFFFFF#32)]

/-- `RDREQ n, c` (R129). -/
def asmRdreq (n c : Word) : List HostOp := [asmW .txqCdr (n &&& 0xFFFF#32), asmW .txqCdr (c &&& 0xFF#32)]

/-- `ENABLE e` (R129). -/
def asmEnable (e : Engine) : List HostOp := [asmW .engEnable (1#32 <<< engineIndex e)]

/-- `DISABLE` (R129). -/
def asmDisable : List HostOp := [asmW .engEnable 0#32]

/-- DMA_CTRL of `SUBMIT` (R129). -/
def submitWord (s i q : Word) : Word := (q <<< 4) ||| (i <<< 3) ||| (s <<< 1) ||| 1#32

/-- `SUBMIT a, n, s, i, q` (R129). -/
def asmSubmit (a n s i q : Word) : List HostOp :=
  [asmW .dmaAddr a, asmW .dmaCount n, asmW .dmaCtrl (submitWord s i q)]

/-- ENC_CTRL of `ENC` (R129). -/
def encWord (op bpp mode tdir : Word) : Word :=
  0x80000000#32 ||| (tdir <<< 10) ||| (mode <<< 8) ||| (bpp <<< 4) ||| op

/-- `ENC op, bpp, mode, tdir` (R129). -/
def asmEnc (op bpp mode tdir : Word) : List HostOp := [asmW .encCtrl (encWord op bpp mode tdir)]

/-- `WIN x1, y1, x2, y2, o` (R129). -/
def asmWin (x1 y1 x2 y2 o : Word) : List HostOp :=
  [asmW .winX ((x2 <<< 16) ||| x1), asmW .winY ((y2 <<< 16) ||| y1), asmW .winCtrl (0x80000000#32 ||| o)]

end Sys2Proof.Machine
end

