-- ==== Sys2Proof/Machine/Procedures.lean ====
section
/-! DEFINITION. The host procedures of 46_upward_interface, as the reference host: each is a program whose next operation
depends on the values read so far.  A procedure is no part of the state; `Proc.turn` runs it against the block, one agent
step at a time, under any schedule (R367). -/

namespace Sys2Proof.Machine

/-! ## Host programs with control flow -/

/-- The two limit registers (R38). -/
inductive LimitReg where
  | tx
  | rx
  deriving DecidableEq, Repr

/-- What a limit register holds. -/
def LimitReg.value (l : LimitReg) (s : State) : Word :=
  match l with
  | .tx => s.cfg.txLimit
  | .rx => s.cfg.rxLimit

/-- A host program (R350): it has returned; or it runs an operation and goes on with the value the host gets; or it takes a
copy of a limit register (R360); or it repeats a read until the value satisfies a condition, without a bound (R363). -/
inductive Proc (α : Type) where
  | ret (a : α)
  | op (o : HostOp) (k : Word → Proc α)
  | copy (l : LimitReg) (k : Word → Proc α)
  | poll (o : HostOp) (done : Word → Bool) (k : Word → Proc α)

/-- One program, then another that depends on its result. -/
def Proc.andThen {α β : Type} (p : Proc α) (f : α → Proc β) : Proc β :=
  match p with
  | .ret a => f a
  | .op o k => .op o fun v => (k v).andThen f
  | .copy l k => .copy l fun v => (k v).andThen f
  | .poll o done k => .poll o done fun v => (k v).andThen f

/-- The operations of a list in order (R110). -/
def procList : List HostOp → Proc Unit
  | [] => .ret ()
  | o :: os => .op o fun _ => procList os

/-- `W <REG>, <value>`. -/
def procW (r : Reg) (v : Word) : Proc Unit := .op (asmW r v) fun _ => .ret ()

/-- `R <REG> -> v`. -/
def procR (r : Reg) : Proc Word := .op (asmR r) .ret

/-- `DELAY t`. -/
def procDelay (t : Nat) : Proc Unit := .op (.delay t) fun _ => .ret ()

/-- The fresh budget of a bounded wait: the host's own copy of TXLIMIT or RXLIMIT (R38, R360).  The programs of
95_test_vectors §3 spend no access on it; DESIGN CHOICE (log 23): the copy is a turn of the host by itself. -/
def procBudget (l : LimitReg) : Proc Nat := .copy l fun v => .ret v.toNat

/-- `Ok`, `TimedOut` or `Err(code)` (R350). -/
inductive ProcResult where
  | ok
  | timedOut
  | err (c : ErrCode)
  deriving DecidableEq, Repr

/-- A bounded wait that timed out is reported as BusTimeout (R364, R419). -/
def timeoutError (r : ProcResult) : ProcResult :=
  match r with
  | .timedOut => .err .busTimeout
  | .ok => .ok
  | .err c => .err c

/-! ## Construction (R351) -/

/-- The result of `initialize`. -/
inductive InitResult where
  | driver
  | failsPinConflict
  deriving DecidableEq, Repr

/-- The pins given to `initialize`; `bl = 0xFF` where there is no backlight line. -/
structure PinAssignment where
  dataBase : Byte
  dc : Byte
  wr : Byte
  rd : Byte
  rst : Byte
  bl : Byte
  deriving DecidableEq, Repr

/-- `initialize(pins, clockWriteHz, clockReadHz)` (R351). -/
def procInitialize (p : PinAssignment) (wclk rclk : Word) : Proc InitResult :=
  (procList
    [asmW .cfgPins (p.rd ++ p.wr ++ p.dc ++ p.dataBase), asmW .cfgPins2 (0#16 ++ p.bl ++ p.rst),
      asmW .cfgWclk wclk, asmW .cfgRclk rclk, asmW .cfgCtrl 1#32]).andThen fun _ =>
  (procR .cfgStatus).andThen fun s =>
  if slice s 8 8 = 0x01#8 then .ret .failsPinConflict
  else
    (procList [asmW .pinctl 0#32, .delay 10000, asmW .pinctl 1#32, .delay 20000]).andThen fun _ => .ret .driver

/-! ## Bracketing and bounded waits (R352, R353, R360) -/

/-- `withEngine(e, body)` (R352). -/
def procWithEngine {α : Type} (e : Engine) (body : Proc α) : Proc α :=
  (procList (asmEnable e)).andThen fun _ =>
  body.andThen fun r =>
  (procList asmDisable).andThen fun _ => .ret r

/-- `waitIdle(e, budget)` (R353); one poll uses up one of the budget (R360). -/
def procWaitIdle (e : Engine) : Nat → Proc ProcResult
  | 0 => (procR .engIdle).andThen fun v => .ret (if bitAt v (engineIndex e) then .ok else .timedOut)
  | budget + 1 =>
    (procR .engIdle).andThen fun v => if bitAt v (engineIndex e) then .ret .ok else procWaitIdle e budget

/-- `waitIdle(e, TXLIMIT)` or `waitIdle(e, RXLIMIT)`. -/
def procDrain (e : Engine) (l : LimitReg) : Proc ProcResult := (procBudget l).andThen (procWaitIdle e)

/-! ## Command path (R354) -/

/-- `sendCommand(cmd, payload)` (R354). -/
def procSendCommand (cmd : Byte) (payload : List Byte) : Proc ProcResult :=
  (procWithEngine .cw
    ((procList (asmCmd (cmd.zeroExtend 32))).andThen fun _ => procDrain .cw .tx)).andThen fun r =>
  if r = .timedOut then .ret (.err .busTimeout)
  else if payload = [] then .ret .ok
  else
    (procWithEngine .dwb
      ((procList (payload.flatMap fun b => asmDb (b.zeroExtend 32))).andThen fun _ =>
        procDrain .dwb .tx)).andThen fun r => .ret (timeoutError r)

/-! ## Window and single pixel (R355, R356) -/

/-- The wait of `setWindow`: WIN_CTRL.BUSY = 0 and ENG_IDLE[0] = 1 (R355). -/
def procWaitWindow : Nat → Proc ProcResult
  | 0 =>
    (procR .winCtrl).andThen fun c =>
    (procR .engIdle).andThen fun v => .ret (if bitAt c 30 = false ∧ bitAt v 0 = true then .ok else .timedOut)
  | budget + 1 =>
    (procR .winCtrl).andThen fun c =>
    (procR .engIdle).andThen fun v =>
    if bitAt c 30 = false ∧ bitAt v 0 = true then .ret .ok else procWaitWindow budget

/-- `setWindow(x1, y1, x2, y2, o)` (R355): an invalid window is rejected before any access. -/
def procSetWindow (x1 y1 x2 y2 : BitVec 16) (portrait : Bool) : Proc ProcResult :=
  if x2 < x1 ∨ y2 < y1 then .ret (.err .invalidWindow)
  else
    (procList [asmW .winX (x2 ++ x1), asmW .winY (y2 ++ y1)]).andThen fun _ =>
    (procWithEngine .cw
      ((procW .winCtrl (winCtrlData true portrait)).andThen fun _ =>
        (procBudget .tx).andThen procWaitWindow)).andThen fun r =>
    .ret (timeoutError r)

/-- `drawPixel(x, y, color, o)` (R356). -/
def procDrawPixel (x y : BitVec 16) (color : Word) (portrait : Bool) : Proc ProcResult :=
  (procSetWindow x y x y portrait).andThen fun r =>
  if r ≠ .ok then .ret r
  else
    (procWithEngine .dwt
      ((procList (asmDt color)).andThen fun _ => procDrain .dwt .tx)).andThen fun r => .ret (timeoutError r)

/-! ## Bulk paths (R357 to R359, R361 to R363) -/

/-- The handle remembers unitCount (R361). -/
structure Handle where
  units : Nat
  deriving DecidableEq, Repr

/-- `submit(addr, n, size, incr, qsel)` (R361). -/
def procSubmit (addr n size incr qsel : Word) : Proc (Except ErrCode Handle) :=
  (procList (asmSubmit addr n size incr qsel)).andThen fun _ =>
  (procR .dmaCtrl).andThen fun c =>
  if slice c 8 8 = 0x05#8 then .ret (.error .addressError) else .ret (.ok ⟨n.toNat⟩)

/-- The poll loop of `awaitCompletion`, at its i-th iteration with `limit` polls left (R362). -/
def procAwaitLoop (p : Params) : Nat → Nat → Proc ProcResult
  | 0, _ => (procR .dmaCount).andThen fun c => .ret (if c = 0#32 then .ok else .timedOut)
  | limit + 1, i =>
    (procR .dmaCount).andThen fun c =>
    if c = 0#32 then .ret .ok
    else (procDelay (p.backoff0 + i * p.backoffStep)).andThen fun _ => procAwaitLoop p limit (i + 1)

/-- `awaitCompletion(handle, limit)` (R362). -/
def procAwaitCompletion (p : Params) (h : Handle) (limit : Nat) : Proc ProcResult :=
  if h.units = 0 then .ret .ok else procAwaitLoop p limit 0

/-- `abort()` (R363): the poll has no budget. -/
def procAbort : Proc Unit :=
  (procW .dmaAbort 1#32).andThen fun _ => .poll (asmR .dmaAbort) (fun a => !bitAt a 0) fun _ => .ret ()

/-- A submitted transfer to engine `e` awaited, aborted on timeout, and the engine drained (R357, R358).  Where the
submission reports AddressError the result is `Err(AddressError)`.  R357 says so of `writePixels`; of `fill` R358 does not
say what happens then and its result type has no such case: returning it there is a DESIGN CHOICE (log 23). -/
def procTransfer (p : Params) (e : Engine) (addr n size incr qsel : Word) : Proc ProcResult :=
  (procSubmit addr n size incr qsel).andThen fun h =>
  match h with
  | .error c => .ret (.err c)
  | .ok h =>
    ((procBudget .tx).andThen (procAwaitCompletion p h)).andThen fun r =>
    if r = .timedOut then procAbort.andThen fun _ => .ret .timedOut else procDrain e .tx

/-- After a bulk path: a timeout clears the engine's queue and is BusTimeout (R357 to R359, R364). -/
def procClearOnTimeout (e : Engine) (r : ProcResult) : Proc ProcResult :=
  if r = .timedOut then (procW .engClear (1#32 <<< engineIndex e)).andThen fun _ => .ret (.err .busTimeout) else .ret r

/-- The pixel formats of `writePixels` (R54, R275, R357). -/
inductive PixelFormat where
  | rgb888
  | rgb565
  | indexed (bpp pal len : Word)
  | glyph (fg bg mode : Word)
  deriving DecidableEq, Repr

/-- The encoder accesses of `writePixels` for a format that needs conversion (R357).  R357 gives the ENC_CTRL word as a
pattern of op, bpp, mode and tdir and does not say what the fields a format does not use hold.  DESIGN CHOICE (log 23): they
are 0, which is BPP, MODE and TDIR for RGB565, MODE and TDIR for Indexed, and BPP and TDIR for Glyph.  ENC_CTRL then reads
so, and the operation ignores them. -/
def encodeOps (buf n scratch : Word) (fmt : PixelFormat) : List HostOp :=
  [asmW .encSrc buf, asmW .encDst scratch, asmW .encCount n] ++
    match fmt with
    | .rgb888 => []
    | .rgb565 => asmEnc 0#32 0#32 0#32 0#32
    | .indexed bpp pal len => [asmW .encPal pal, asmW .encPalLen len] ++ asmEnc 1#32 bpp 0#32 0#32
    | .glyph fg bg mode => [asmW .encFg fg, asmW .encBg bg] ++ asmEnc 2#32 0#32 mode 0#32

/-- The stream of `writePixels`: 3n bytes through DWB by the DMA (R357). -/
def procStream (p : Params) (src n : Word) : Proc ProcResult :=
  (procWithEngine .dwb (procTransfer p .dwb src (3#32 * n) 0#32 1#32 1#32)).andThen
    (procClearOnTimeout .dwb)

/-- The error a status byte stands for (R401). -/
def errOfByte (b : Byte) : ErrCode :=
  if b = 0x01#8 then .pinConflict
  else if b = 0x02#8 then .busTimeout
  else if b = 0x03#8 then .invalidWindow
  else if b = 0x04#8 then .unsupportedPixelFormat
  else if b = 0x05#8 then .addressError
  else if b = 0x06#8 then .paletteRange
  else .ok

/-- `writePixels(buf, n, fmt, scratch)` (R357). -/
def procWritePixels (p : Params) (buf n : Word) (fmt : PixelFormat) (scratch : Word) :
    Proc ProcResult :=
  if fmt = .rgb888 then procStream p buf n
  else
    (procList (encodeOps buf n scratch fmt)).andThen fun _ =>
    (procR .encStatus).andThen fun s =>
    if s ≠ 0#32 then .ret (.err (errOfByte (slice s 0 8))) else procStream p scratch n

/-- `fill(color, n, scratch)` (R358). -/
def procFill (p : Params) (color n scratch : Word) : Proc ProcResult :=
  (procList [.memw scratch .b4 color]).andThen fun _ =>
  (procWithEngine .dwt (procTransfer p .dwt scratch n 2#32 0#32 2#32)).andThen (procClearOnTimeout .dwt)

/-- The wait for one byte in RXQ (R359). -/
def procWaitByte : Nat → Proc ProcResult
  | 0 => (procR .rxLevel).andThen fun l => .ret (if l = 0#32 then .timedOut else .ok)
  | budget + 1 => (procR .rxLevel).andThen fun l => if l = 0#32 then procWaitByte budget else .ret .ok

/-- `count` bytes popped one by one, `got` being those popped before; each wait has a budget of its own (R359, R360). -/
def procReadBytes : Nat → List Byte → Proc (ProcResult × List Byte)
  | 0, got => (procDrain .cdr .rx).andThen fun r => .ret (r, got)
  | count + 1, got =>
    ((procBudget .rx).andThen procWaitByte).andThen fun r =>
    if r = .timedOut then .ret (.timedOut, got)
    else (procR .rxqCdr).andThen fun b => procReadBytes count (got ++ [slice b 0 8])

/-- `readPixels(cmd, count)` for count <= 65535 (R359). -/
def procReadPixels (cmd : Byte) (count : BitVec 16) : Proc (Except ErrCode (List Byte)) :=
  (procWithEngine .cdr
    ((procList (asmRdreq (count.zeroExtend 32) (cmd.zeroExtend 32))).andThen fun _ =>
      procReadBytes count.toNat [])).andThen fun (r, out) =>
  if r = .timedOut then (procW .engClear 0x8#32).andThen fun _ => .ret (.error .busTimeout) else .ret (.ok out)

/-! ## Running a procedure against the block -/

/-- The value the host got last. -/
def lastRead (s : State) : Word := s.host.reads.getLast?.getD 0#32

/-- One agent step of the block together with a procedure: the host's turn runs the procedure's next operation, from its
start again while it is held (R407); a copy of a limit register takes a turn of the host and changes no state. -/
def Proc.turn {α : Type} (t : Turn) (c : Proc α × State) : Host.Outcome (Proc α × State) Fault Refusal :=
  match c.2.faults, c.2.refused with
  | f :: _, _ => .fault f
  | [], some r => .refused r
  | [], none =>
    if t = .host then
      match c.1 with
      | .ret _ => .next c
      | .op o k =>
        match runHost { c.2 with host.program := [o] } with
        | .next s =>
          .next
            (if s.host.held.isSome then (.op o k, { s with host.program := [] }) else (k (lastRead s), s))
        | .fault f => .fault f
        | .refused r => .refused r
      | .copy l k => .next (k (l.value c.2), c.2)
      | .poll o done k =>
        match runHost { c.2 with host.program := [o] } with
        | .next s =>
          .next
            (if s.host.held.isSome = true ∨ done (lastRead s) = false then
               (.poll o done k, { s with host.program := [] })
             else (k (lastRead s), s))
        | .fault f => .fault f
        | .refused r => .refused r
    else
      match runTurn t c.2 with
      | .next s => .next (c.1, s)
      | .fault f => .fault f
      | .refused r => .refused r

/-- A procedure run under a schedule. -/
def Proc.run {α : Type} : List Turn → Proc α × State → Host.Outcome (Proc α × State) Fault Refusal
  | [], c => .next c
  | t :: ts, c =>
    match Proc.turn t c with
    | .next c' => Proc.run ts c'
    | .fault f => .fault f
    | .refused r => .refused r

/-- What a procedure has returned, if it has. -/
def Proc.result {α : Type} (p : Proc α) : Option α :=
  match p with
  | .ret a => some a
  | .op _ _ => none
  | .copy _ _ => none
  | .poll _ _ _ => none

end Sys2Proof.Machine
end

