-- ==== Sys2Proof/Laws/Procedures.lean ====
section
/-! SUPPORT. The bounded waits of the host procedures (46_upward_interface R360): where a wait's budget comes from. -/

namespace Sys2Proof.Machine

/-- A fresh budget is what the limit register holds, taken by a turn of the host that changes no state (R360). -/
theorem procBudget_turn {α : Type} (l : LimitReg) (f : Nat → Proc α) {s : State} (hf : s.faults = [])
    (hr : s.refused = none) :
    Proc.turn .host ((procBudget l).andThen f, s) = .next (f (l.value s).toNat, s) := by
  simp [Proc.turn, procBudget, Proc.andThen, hf, hr]

/-- Draining an engine starts `waitIdle` with the register's value. -/
theorem procDrain_turn (e : Engine) (l : LimitReg) {s : State} (hf : s.faults = []) (hr : s.refused = none) :
    Proc.turn .host (procDrain e l, s) = .next (procWaitIdle e (l.value s).toNat, s) :=
  procBudget_turn l (procWaitIdle e) hf hr

end Sys2Proof.Machine
end

