-- ==== Sys2Proof/Laws/Step.lean ====
section
/-! SUPPORT. What a step can do, said once: the inversion of `step`, of the host's and an engine's step, and the one
induction by which a property of states is shown to be kept by every step. -/

namespace Sys2Proof.Machine

/-- Every meaning answers a next state: faults, refusals and holds are recorded in it (R405 to R407). -/
theorem exec_next (i : Instr) (s : State) : ∃ t, exec i s = .next t := by
  cases i <;> exact ⟨_, rfl⟩

/-- A step is the turn of the next agent, in a state that is neither faulted nor refused. -/
theorem step_cases {s t : State} (h : step s = .next t) :
    s.faults = [] ∧ s.refused = none ∧ runTurn s.nextTurn s.tick = .next t := by
  unfold step stepState at h
  split at h
  · cases h
  · split at h
    · cases h
    · exact ⟨‹_›, ‹_›, h⟩

/-- In such a state the step is that turn. -/
theorem step_eq {s : State} (hf : s.faults = []) (hr : s.refused = none) :
    step s = runTurn s.nextTurn s.tick := by
  unfold step stepState
  rw [hf, hr]

/-- The host's step: nothing left to do, a refusal at decoding, or the meaning of the decoded operation. -/
theorem runHost_cases {s t : State} (h : runHost s = .next t) :
    (s.host.program = [] ∧ t = s) ∨
    (∃ op rest, s.host.program = op :: rest ∧
      ((∃ e, hostDecode s.params op = .error e ∧ t = s.refuse (refusalOf e)) ∨
       (∃ i u, hostDecode s.params op = .ok i ∧ exec i s.unhold = .next u ∧ t = u.hostDone))) := by
  unfold runHost at h
  split at h
  · cases h; exact .inl ⟨‹_›, rfl⟩
  · rename_i op rest hp
    refine .inr ⟨op, rest, hp, ?_⟩
    split at h
    · cases h; exact .inl ⟨_, ‹_›, rfl⟩
    · rename_i i hi
      obtain ⟨u, hu⟩ := exec_next i s.unhold
      rw [hu] at h
      cases h
      exact .inr ⟨i, u, hi, hu, rfl⟩

/-- An engine's step: a unit of its queue, a read strobe of the CDR, the CDR's restore, or nothing. -/
theorem runEngine_cases {e : Engine} {s t : State} (h : runEngine e s = .next t) :
    (∃ k w, engineFetch s e = some (.txUnit k w) ∧ exec (decodeUnit k w) s = .next t) ∨
    (engineFetch s e = some (.rxUnit s.deviceByte) ∧ exec (.qunitRx s.deviceByte) s.drawn = .next t) ∨
    (engineFetch s e = none ∧ e = .cdr ∧ s.restoreEnabled = true ∧ t = s.cdrRestore) ∨
    (engineFetch s e = none ∧ ¬(e = .cdr ∧ s.restoreEnabled = true) ∧ t = s) := by
  have hx : ∀ x, engineFetch s e = some x → (∃ k w, x = .txUnit k w) ∨ x = .rxUnit s.deviceByte := by
    intro x hx
    unfold engineFetch at hx
    split at hx
    · split at hx
      · obtain ⟨w, -, rfl⟩ := Option.map_eq_some_iff.1 hx
        exact .inl ⟨_, w, rfl⟩
      · split at hx
        · cases hx; exact .inr rfl
        · cases hx
    · cases hx
  unfold runEngine at h
  split at h
  · rename_i x hf
    rcases hx x hf with ⟨k, w, rfl⟩ | rfl
    · exact .inl ⟨k, w, hf, h⟩
    · exact .inr (.inl ⟨hf, h⟩)
  · rename_i hf
    cases h
    by_cases hc : e = .cdr ∧ s.restoreEnabled = true
    · exact .inr (.inr (.inl ⟨hf, hc.1, hc.2, if_pos hc⟩))
    · exact .inr (.inr (.inr ⟨hf, hc, if_neg hc⟩))

/-- A property of states is kept by every step when the bookkeeping of a step, every meaning, and the steps that run no
instruction keep it. -/
theorem step_keeps (P : State → Prop) (tick : ∀ s, P s → P s.tick) (unhold : ∀ s, P s → P s.unhold)
    (advance : ∀ s, P s → P s.hostAdvance) (refuse : ∀ s r, P s → P (s.refuse r)) (drawn : ∀ s, P s → P s.drawn)
    (meaning : ∀ i s t, exec i s = .next t → P s → P t)
    (restore : ∀ s, s.restoreEnabled = true → P s → P s.cdrRestore)
    (unit : ∀ s, P s → P s.dmaUnit) (ack : ∀ s, P s → P s.dmaAck) (window : ∀ s, P s → P s.winStep)
    {s t : State} (h : step s = .next t) (hs : P s) : P t := by
  obtain ⟨-, -, h⟩ := step_cases h
  replace hs := tick s hs
  generalize s.tick = u at h hs
  cases ht : s.nextTurn with
  | host =>
    rw [ht] at h
    rcases runHost_cases h with ⟨-, rfl⟩ | ⟨op, rest, -, ⟨e, -, rfl⟩ | ⟨i, v, -, hv, rfl⟩⟩
    · exact hs
    · exact refuse _ _ hs
    · have := meaning i _ _ hv (unhold _ hs)
      unfold State.hostDone
      split
      · exact this
      · exact advance _ this
  | engine e =>
    rw [ht] at h
    rcases runEngine_cases h with ⟨k, w, -, hx⟩ | ⟨-, hx⟩ | ⟨-, -, hr, rfl⟩ | ⟨-, -, rfl⟩
    · exact meaning _ _ _ hx hs
    · exact meaning _ _ _ hx (drawn _ hs)
    · exact restore _ hr hs
    · exact hs
  | dmaUnit => rw [ht] at h; cases h; exact unit _ hs
  | dmaAck => rw [ht] at h; cases h; exact ack _ hs
  | window => rw [ht] at h; cases h; exact window _ hs

end Sys2Proof.Machine
end

