-- ==== Sys2Proof/Tests/Slice0.lean ====
section
/-! SUPPORT. Tests: what WellFormed refuses, the decoding of every constructor from a word written out from the spec, a few
steps with the results of 95_test_vectors, and for each statement with hypotheses a state that meets them. -/

namespace Sys2Proof.Tests

open Sys2Proof Sys2Proof.Machine

/-! ## Helpers -/

/-- The next state of an outcome; `s` where there is none. -/
def nextOf (o : Host.Outcome State Fault Refusal) (s : State) : State :=
  match o with
  | .next t => t
  | .fault _ => s
  | .refused _ => s

/-- The state after an instruction. -/
def after (i : Instr) (s : State) : State := nextOf (exec i s) s

/-- What an instruction returns to the host. -/
def got (i : Instr) (s : State) : List Word := (after i s).host.reads

/-- S0 of 95_test_vectors §0. -/
def S0 : State := State.reset

/-- C0 of 95_test_vectors §0, with the trace empty. -/
def C0 : State :=
  { State.reset with
    cfg :=
      { pins := 0x0B0A0800#32, pins2 := 0x0D0C#16, wclk := 20000000#32, rclk := 10000000#32, configured := true,
        err := .ok, txLimit := 2304#32, rxLimit := 4#32 }
    pins := { State.reset.pins with driven := true } }

/-- S0 with the four configuration registers of V-CFG-1 written. -/
def beforeInit : State :=
  { S0 with
    cfg := { S0.cfg with pins := 0x0B0A0800#32, pins2 := 0x0D0C#16, wclk := 20000000#32, rclk := 10000000#32 } }

/-- A state with the given turn next. -/
def turn (t : Turn) (s : State) : State := { s with world.sched := [t] }

/-- C0 with engine enable set `en`. -/
def enabled (en : BitVec 4) : State := { C0 with eng.enable := en }

/-- C0 with a transfer of `n` units busy over `[lo, hi)`. -/
def busyDma (size : AccessSize) (incr : Bool) (qsel : QSel) (n : Word) (lo hi : Nat) : State :=
  { C0 with
    dma :=
      { C0.dma with
        addr := BitVec.ofNat 32 lo, count := n, size := size, incr := incr, qsel := qsel, busy := true, lo := lo
        hi := hi } }

/-- Bytes at an address. -/
def bytesAt (a : Nat) (bs : List Byte) : Memory := bs.mapIdx fun i b => (a + i, b)

/-- An encoder state as 95_test_vectors §2.4 sets it up: ENC_SRC = 0x20002000, ENC_DST = 0x20003000. -/
def enc (count : Word) (src : List Byte) : State :=
  { C0 with enc := { C0.enc with src := 0x20002000#32, dst := 0x20003000#32, count := count }, mem := bytesAt 0x20002000 src }

/-- The first `n` bytes at the destination. -/
def dest (s : State) (n : Nat) : List Byte := (List.range n).map fun i => s.mem.read (0x20003000 + i)

/-! ## WellFormed -/

theorem test_wellFormed_refuses_reserved2_op0 : WellFormed (.wEncCtrlReserved2 0#4 0#4 0#2 false) = false := by decide
theorem test_wellFormed_refuses_reserved2_op8 : WellFormed (.wEncCtrlReserved2 8#4 0#4 0#2 false) = false := by decide
theorem test_wellFormed_refuses_reserved3_op7 : WellFormed (.wEncCtrlReserved3 7#4 0#4 0#2 false) = false := by decide
theorem test_wellFormed_accepts_reserved :
    WellFormed (.wEncCtrlReserved2 6#4 0#4 0#2 false) = true ∧ WellFormed (.wEncCtrlReserved2 7#4 0#4 0#2 false) = true ∧
    WellFormed (.wEncCtrlReserved3 8#4 0#4 0#2 false) = true ∧ WellFormed (.wEncCtrlReserved3 15#4 0#4 0#2 false) = true := by
  decide

/-! ## Decoding: every word is written out from R111 (000, DIR, OFF, DATA) and the field table of its register -/

theorem test_decode_config_writes :
    decodeTableWord 48 0x10000B0A0800 = some (.wCfgPins 0x00#8 0x08#8 0x0A#8 0x0B#8) ∧
    decodeTableWord 48 0x1004FFFF0D0C = some (.wCfgPins2 0x0C#8 0x0D#8) ∧
    decodeTableWord 48 0x100801312D00 = some (.wCfgWclk 20000000#32) ∧
    decodeTableWord 48 0x100C00989680 = some (.wCfgRclk 10000000#32) ∧
    decodeTableWord 48 0x101000000001 = some .wCfgCtrlInit ∧
    decodeTableWord 48 0x1010FFFFFFFE = some .wCfgCtrlNop ∧
    decodeTableWord 48 0x102000000002 = some (.wPinctl false true) := by decide

theorem test_decode_config_reads :
    decodeTableWord 48 0x000000000000 = some .rCfgPins ∧ decodeTableWord 48 0x000400000000 = some .rCfgPins2 ∧
    decodeTableWord 48 0x000800000000 = some .rCfgWclk ∧ decodeTableWord 48 0x000C00000000 = some .rCfgRclk ∧
    decodeTableWord 48 0x001400000000 = some .rCfgStatus ∧ decodeTableWord 48 0x001800000000 = some .rTxLimit ∧
    decodeTableWord 48 0x001C00000000 = some .rRxLimit ∧ decodeTableWord 48 0x002000000000 = some .rPinctl := by decide

theorem test_decode_engines :
    decodeTableWord 48 0x104000000008 = some (.wEngEnable 8#4) ∧ decodeTableWord 48 0x004000000000 = some .rEngEnable ∧
    decodeTableWord 48 0x004400000000 = some .rEngIdle ∧ decodeTableWord 48 0x104800000004 = some (.wEngClear 4#4) ∧
    decodeTableWord 48 0x004C00000000 = some .rTxLevel ∧ decodeTableWord 48 0x005000000000 = some .rRxLevel ∧
    decodeTableWord 48 0x106000000036 = some (.wTxqCw 0x36#32) ∧
    decodeTableWord 48 0x1064000001FF = some (.wTxqDwb 0x1FF#32) ∧
    decodeTableWord 48 0x106800FF8000 = some (.wTxqDwt 0x00FF8000#32) ∧
    decodeTableWord 48 0x106C0000002E = some (.wTxqCdr 0x2E#32) ∧
    decodeTableWord 48 0x007000000000 = some .rRxqCdr := by decide

theorem test_decode_dma :
    decodeTableWord 48 0x108020000000 = some (.wDmaAddr 0x20000000#32) ∧ decodeTableWord 48 0x008000000000 = some .rDmaAddr ∧
    decodeTableWord 48 0x108400000003 = some (.wDmaCount 3#32) ∧ decodeTableWord 48 0x008400000000 = some .rDmaCount ∧
    decodeTableWord 48 0x108800000025 = some (.wDmaCtrlSubmit 2#2 false 2#3) ∧
    decodeTableWord 48 0x108800000018 = some (.wDmaCtrlSet 0#2 true 1#3) ∧
    decodeTableWord 48 0x008800000000 = some .rDmaCtrl ∧ decodeTableWord 48 0x108C00000001 = some (.wDmaAbort true) ∧
    decodeTableWord 48 0x008C00000000 = some .rDmaAbort := by decide

theorem test_decode_encoder_operands :
    decodeTableWord 48 0x10C020001000 = some (.wEncSrc 0x20001000#32) ∧ decodeTableWord 48 0x00C000000000 = some .rEncSrc ∧
    decodeTableWord 48 0x10C420002000 = some (.wEncDst 0x20002000#32) ∧ decodeTableWord 48 0x00C400000000 = some .rEncDst ∧
    decodeTableWord 48 0x10C800000002 = some (.wEncCount 2#32) ∧ decodeTableWord 48 0x00C800000000 = some .rEncCount ∧
    decodeTableWord 48 0x10CC20000400 = some (.wEncPal 0x20000400#32) ∧ decodeTableWord 48 0x00CC00000000 = some .rEncPal ∧
    decodeTableWord 48 0x10D0FFFFFF00 = some (.wEncPalLen 0x100#9) ∧ decodeTableWord 48 0x00D000000000 = some .rEncPalLen ∧
    decodeTableWord 48 0x10D400FF8001 = some (.wEncFg 0xFF#8 0x80#8 0x01#8) ∧
    decodeTableWord 48 0x00D400000000 = some .rEncFg ∧
    decodeTableWord 48 0x10D800010203 = some (.wEncBg 1#8 2#8 3#8) ∧ decodeTableWord 48 0x00D800000000 = some .rEncBg ∧
    decodeTableWord 48 0x10DC00020003 = some (.wEncDim 3#16 2#16) ∧ decodeTableWord 48 0x00DC00000000 = some .rEncDim := by
  decide

theorem test_decode_encoder_control :
    decodeTableWord 48 0x10E000000212 = some (.wEncCtrlSet 2#4 1#4 2#2 false) ∧
    decodeTableWord 48 0x10E080000400 = some (.wEncCtrlRgb565 0#4 0#2 true) ∧
    decodeTableWord 48 0x10E080000081 = some (.wEncCtrlIndexed 8#4 0#2 false) ∧
    decodeTableWord 48 0x10E080000302 = some (.wEncCtrlGlyph 0#4 3#2 false) ∧
    decodeTableWord 48 0x10E080000003 = some (.wEncCtrlBitrev 0#4 0#2 false) ∧
    decodeTableWord 48 0x10E080000404 = some (.wEncCtrlTranspose 0#4 0#2 true) ∧
    decodeTableWord 48 0x10E080000015 = some (.wEncCtrlReserved1 1#4 0#2 false) ∧
    decodeTableWord 48 0x10E080000007 = some (.wEncCtrlReserved2 7#4 0#4 0#2 false) ∧
    decodeTableWord 48 0x10E08000010F = some (.wEncCtrlReserved3 15#4 0#4 1#2 false) ∧
    decodeTableWord 48 0x00E000000000 = some .rEncCtrl ∧ decodeTableWord 48 0x00E400000000 = some .rEncStatus := by decide

theorem test_decode_window :
    decodeTableWord 48 0x1100031F0010 = some (.wWinX 0x10#16 0x31F#16) ∧ decodeTableWord 48 0x010000000000 = some .rWinX ∧
    decodeTableWord 48 0x110401DF0020 = some (.wWinY 0x20#16 0x1DF#16) ∧ decodeTableWord 48 0x010400000000 = some .rWinY ∧
    decodeTableWord 48 0x110880000001 = some (.wWinCtrlStart true) ∧
    decodeTableWord 48 0x110800000001 = some (.wWinCtrlSet true) ∧ decodeTableWord 48 0x010800000000 = some .rWinCtrl ∧
    decodeTableWord 48 0x110C00393837 = some (.wWinCmd 0x37#8 0x38#8 0x39#8) ∧
    decodeTableWord 48 0x010C00000000 = some .rWinCmd ∧ decodeTableWord 48 0x011000000000 = some .rWinStatus := by decide

theorem test_decode_units :
    decode (.txUnit .cw 0xFFFFFF2A#32) = .ok (.qunitCw true 0x2A#8) ∧
    decode (.txUnit .dwb 0x000001FF#32) = .ok (.qunitDwb 0xFF#8) ∧
    decode (.txUnit .dwt 0xAB123456#32) = .ok (.qunitDwt 0x12#8 0x34#8 0x56#8) ∧
    decode (.txUnit .cdrCount 0xABCD0003#32) = .ok (.qunitCdrCount 3#16) ∧
    decode (.txUnit .cdrCmd 0x0000012E#32) = .ok (.qunitCdrCmd 0x2E#8) ∧
    decodeTableWord 8 0x5A = some (.qunitRx 0x5A#8) ∧ decodeTableWord 32 0x12A = some (.qunitCw true 0x2A#8) := by decide

theorem test_decode_host :
    decode (.memw 0x20000000#32 .b4 0x00FF8000#32) = .ok (.memw 0x20000000#32 .b4 0x00FF8000#32) ∧
    decode (.memr 0x20000000#32 .b2) = .ok (.memr 0x20000000#32 .b2) ∧ decode (.delay 10000) = .ok (.delay 10000) := by
  decide

/-- V-EXC-1 to V-EXC-6 and V-ENG-24. -/
theorem test_decode_rejects :
    decode (.access 0x004200000000#48) = .error .badAccess ∧ decode (.access 0x003C00000000#48) = .error .unmappedOffset ∧
    decode (.access 0x204000000000#48) = .error .unmappedOffset ∧
    decode (.access 0x101400000000#48) = .error .writeReadOnly ∧
    decode (.access 0x001000000000#48) = .error .readWriteOnly ∧ decode (.access 0x0040000000FF#48) = .error .badAccess ∧
    decode (.access 0x006000000000#48) = .error .readWriteOnly := by decide

theorem test_placed_words_are_fetched :
    (S0.withFetchWord 48 0x102000000002).nextTurn = .host ∧
    engineFetch (S0.withFetchWord 32 0x12A) .cw = some (.txUnit .cw 0x12A#32) ∧
    engineFetch (S0.withFetchWord 8 0x5A) .cdr = some (.rxUnit 0x5A#8) := by decide

/-! ## Single steps, with the results of 95_test_vectors §2 -/

/-- V-CFG-1. -/
theorem test_init : (after .wCfgCtrlInit beforeInit).cfg = C0.cfg ∧
    (after .wCfgCtrlInit beforeInit).trace = [.init true (some false)] := by decide
/-- V-CFG-2, V-CFG-3, V-CFG-4. -/
theorem test_init_pinConflict :
    ∀ c ∈ [{ beforeInit.cfg with pins := 0x0B0A0700#32 }, { beforeInit.cfg with pins2 := 0x0D1E#16 },
        { beforeInit.cfg with pins2 := 0x0A0C#16 }],
      got .rCfgStatus (after .wCfgCtrlInit { beforeInit with cfg := c }) = [0x100#32] := by decide
/-- V-CFG-5. -/
theorem test_init_without_backlight :
    (after .wCfgCtrlInit { beforeInit with cfg.pins2 := 0xFF0C#16 }).trace = [.init true none] ∧
    (after (.wPinctl true true) { C0 with cfg.pins2 := 0xFF0C#16 }).trace = [] := by decide
/-- V-CFG-6, V-CFG-7, V-CFG-9. -/
theorem test_config_faults :
    (after .wCfgCtrlInit { beforeInit with cfg.rclk := 0#32 }).faults = [.clockZero] ∧
    (after .wCfgCtrlInit C0).faults = [.reInit] ∧ (after (.wCfgPins 0#8 0#8 0#8 0#8) C0).faults = [.configLocked] ∧
    (after (.wCfgPins 0#8 0#8 0#8 0#8) C0).cfg = C0.cfg := by decide
/-- V-CFG-8. -/
theorem test_limits_floor :
    txLimitOf { Params.testChoices with maxFill := 1, bytesPerPixel := 1 } { beforeInit.cfg with rclk := 4000000000#32 } = 1#32 ∧
    rxLimitOf Params.testChoices { beforeInit.cfg with rclk := 4000000000#32 } = 1#32 := by decide
/-- V-CFG-12 and its note. -/
theorem test_pinctl :
    (after (.wPinctl true true) C0).trace = [.bl true] ∧
    (after (.wPinctl true true) (after (.wPinctl true true) C0)).trace = [.bl true] ∧
    got .rPinctl (after (.wPinctl true true) C0) = [3#32] ∧
    (after (.wPinctl false true) C0).trace = [.rst false, .bl true] := by decide
/-- V-CFG-13, V-CFG-14. -/
theorem test_config_reads :
    got .rCfgPins2 (after (.wCfgPins2 0x0C#8 0x0D#8) S0) = [0x0D0C#32] ∧ got .rCfgPins2 S0 = [0xFF00#32] ∧
    got .rPinctl S0 = [1#32] ∧ got .rWinCmd S0 = [0x2C2B2A#32] ∧ got .rEngIdle S0 = [0xF#32] := by decide

/-- V-ENG-1, V-ENG-2: units 0x02A, 0x105. -/
theorem test_unit_cw :
    (after (.qunitCw true 0x05#8) { enabled 1#4 with eng.txqCw := [0x105#32] }).trace = [.w true 0x05#8] ∧
    (after (.qunitCw false 0x2A#8) { enabled 1#4 with eng.txqCw := [0xFFFFFE2A#32, 1#32] }).eng.txqCw = [1#32] := by decide
/-- V-ENG-3. -/
theorem test_unit_dwb :
    step (turn (.engine .dwb) { enabled 2#4 with eng.txqDwb := [0x1FF#32] }) =
      exec (.qunitDwb 0xFF#8) (turn (.engine .dwb) { enabled 2#4 with eng.txqDwb := [0x1FF#32] }).tick ∧
    (after (.qunitDwb 0xFF#8) { enabled 2#4 with eng.txqDwb := [0x1FF#32] }).trace = [.w true 0xFF#8] :=
  ⟨rfl, by decide⟩
/-- V-ENG-6. -/
theorem test_unit_dwt :
    (after (.qunitDwt 0x12#8 0x34#8 0x56#8) { enabled 4#4 with eng.txqDwt := [0xAB123456#32] }).trace
      = [.w true 0x12#8, .w true 0x34#8, .w true 0x56#8] := by decide
/-- The examples of R195, R196, R197. -/
theorem test_units_cdr :
    (after (.qunitCdrCount 3#16) { enabled 8#4 with eng.txqCdr := [3#32] }).eng.phase = .cmd 3#16 ∧
    (after (.qunitCdrCmd 0x2E#8) { enabled 8#4 with eng.txqCdr := [0x2E#32], eng.phase := .cmd 3#16 }).trace
      = [.w false 0x2E#8, .dirIn] ∧
    (after (.qunitRx 0x11#8) { enabled 8#4 with eng.phase := .read 3#16 true }).trace = [.settle, .rd 0x11#8] ∧
    (after (.qunitRx 0x11#8) { enabled 8#4 with eng.phase := .read 3#16 true }).eng.phase = .read 2#16 false := by decide
/-- V-ENG-11: no strobe while RXQ is full. -/
theorem test_unit_rx_waits :
    let s : State := { enabled 8#4 with eng.rxq := [1#8, 2#8, 3#8, 4#8], eng.phase := .read 2#16 false }
    after (.qunitRx 5#8) s = s := by decide
/-- V-ENG-13, V-ENG-14. -/
theorem test_cdr_terminate :
    (after (.wEngEnable 0#4) { enabled 8#4 with eng.phase := .read 2#16 false, pins.dataDir := .inp }).trace = [.dirOut] ∧
    (after (.wEngEnable 0#4) { enabled 8#4 with eng.phase := .cmd 5#16 }).trace = [] ∧
    (after (.wEngEnable 0#4) { enabled 8#4 with eng.phase := .cmd 5#16 }).eng.phase = .count := by decide
/-- V-ENG-15 to V-ENG-19. -/
theorem test_enable :
    (after (.wEngEnable 2#4) (enabled 1#4)).faults = [.busContention] ∧ (after (.wEngEnable 3#4) C0).faults = [.busContention] ∧
    got .rEngEnable (after (.wEngEnable 1#4) (enabled 1#4)) = [1#32] ∧ (after (.wEngEnable 1#4) S0).faults = [.notConfigured] ∧
    (after (.wEngEnable 0#4) S0).faults = [] := by decide
/-- V-ENG-7, V-ENG-21, V-ENG-20. -/
theorem test_levels_and_clear :
    let s : State := { C0 with eng.txqDwb := [1#32, 2#32] }
    got .rTxLevel s = [0x200#32] ∧ got .rEngIdle s = [0xD#32] ∧ got .rTxLevel (after (.wEngClear 2#4) s) = [0#32] ∧
    (after (.wEngClear 4#4) (enabled 4#4)).faults = [.clearActive] := by decide
/-- V-ENG-22, V-ENG-23. -/
theorem test_push :
    (after (.wTxqDwt 0xFF#32) (busyDma .b4 false (.tx .dwt) 3#32 0x20000000 0x20000004)).faults = [.queueConflict] ∧
    (after (.wTxqDwb 5#32) { C0 with eng.txqDwb := [1#32, 2#32, 3#32, 4#32] }).host.held = some .pushFull ∧
    (after (.wTxqCw 0x2A#32) C0).eng.txqCw = [0x2A#32] ∧ (after (.wTxqCdr 3#32) C0).eng.txqCdr = [3#32] := by decide
/-- V-ENG-9's pops, V-DMA-14, and R189's hold. -/
theorem test_pop :
    got .rRxqCdr { C0 with eng.rxq := [0x11#8, 0x22#8] } = [0x11#32] ∧ got .rRxLevel { C0 with eng.rxq := [0x11#8, 0x22#8] } = [2#32] ∧
    (after .rRxqCdr (busyDma .b1 true .rx 2#32 0x20003000 0x20003002)).faults = [.queueConflict] ∧
    (after .rRxqCdr C0).host.held = some .popEmpty := by decide

/-- V-DMA-1's submission and its read. -/
theorem test_submit :
    let s := after (.wDmaCtrlSubmit 2#2 false 2#3) { C0 with dma := { C0.dma with addr := 0x20000000#32, count := 3#32 } }
    got .rDmaCtrl s = [0x25#32] ∧ s.dma.hi = 0x20000004 := by decide
/-- V-DMA-5, V-DMA-6, V-DMA-7. -/
theorem test_submit_checks :
    got .rDmaCtrl (after (.wDmaCtrlSubmit 2#2 false 2#3) C0) = [0x24#32] ∧
    got .rDmaCtrl (after (.wDmaCtrlSubmit 2#2 false 2#3)
      { C0 with dma := { C0.dma with addr := 0x20000001#32, count := 2#32 } }) = [0x524#32] ∧
    got .rDmaCtrl (after (.wDmaCtrlSubmit 0#2 true 1#3)
      { C0 with dma := { C0.dma with addr := 0x2003FFFE#32, count := 4#32 } }) = [0x518#32] := by decide
/-- V-DMA-10, V-DMA-11, V-DMA-12, V-EXC-8. -/
theorem test_dma_faults :
    (after (.wDmaCtrlSubmit 1#2 false 4#3) C0).faults = [.reservedValue] ∧
    (after (.wDmaCtrlSet 3#2 false 0#3) C0).faults = [.reservedValue] ∧
    (after (.wDmaCtrlSubmit 0#2 true 1#3) S0).faults = [.notConfigured] ∧
    (after (.wDmaAddr 0x20000100#32) (busyDma .b4 false (.tx .dwt) 3#32 0x20000000 0x20000004)).faults = [.dmaBusy] ∧
    (after (.wDmaCtrlSubmit 3#2 false 4#3) (busyDma .b4 false (.tx .dwt) 3#32 0x20000000 0x20000004)).faults = [.dmaBusy] := by
  decide
/-- V-DMA-2, V-DMA-3: one unit step. -/
theorem test_dma_unit :
    (State.dmaUnit { busyDma .b2 true (.tx .dwb) 1#32 0x20001000 0x20001002 with mem := bytesAt 0x20001000 [0x34#8, 0x12#8] }).eng.txqDwb
      = [0x1234#32] ∧
    got .rDmaAddr (State.dmaUnit
      { busyDma .b2 true (.tx .dwb) 1#32 0x20001000 0x20001002 with mem := bytesAt 0x20001000 [0x34#8, 0x12#8] }) = [0x20001002#32] ∧
    (State.dmaUnit { busyDma .b1 true .rx 2#32 0x20003000 0x20003002 with eng.rxq := [0x5A#8] }).mem = [(0x20003000, 0x5A#8)] := by
  decide
/-- V-DMA-16, V-DMA-18. -/
theorem test_dma_abort :
    got .rDmaAbort (after (.wDmaAbort true) C0) = [0#32] ∧
    (after (.wDmaAbort true) (busyDma .b4 false (.tx .dwt) 2#32 0x20000000 0x20000004)).dma.grace = true ∧
    (State.dmaAck (after (.wDmaAbort true) (busyDma .b4 false (.tx .dwt) 2#32 0x20000000 0x20000004))).dma.count = 2#32 := by
  decide
/-- V-DMA-20, V-DMA-21, V-EXC-7. -/
theorem test_memw :
    (after (.memw 0x20000002#32 .b1 0#32) (busyDma .b4 false (.tx .dwt) 2#32 0x20000000 0x20000004)).faults = [.bufferRace] ∧
    (after (.memw 0x20000004#32 .b4 0#32) (busyDma .b4 false (.tx .dwt) 2#32 0x20000000 0x20000004)).faults = [] ∧
    (after (.memw 0x10000000#32 .b4 0#32) C0).refused = some .badHostMemory := by decide
/-- P3 step 1: little-endian. -/
theorem test_memr :
    (after (.memw 0x20000000#32 .b4 0x00FF8000#32) C0).mem = bytesAt 0x20000000 [0x00#8, 0x80#8, 0xFF#8, 0x00#8] ∧
    got (.memr 0x20000001#32 .b2) { C0 with mem := bytesAt 0x20000000 [0x00#8, 0x80#8, 0xFF#8] } = [0xFF80#32] := by decide

/-- V-ENC-1 (its first three pixels). -/
theorem test_rgb565 :
    dest (after (.wEncCtrlRgb565 0#4 0#2 false) (enc 3#32 [0xF8#8, 0x00#8, 0x07#8, 0xE0#8, 0x12#8, 0x34#8])) 9
      = [0xF8#8, 0x00#8, 0x00#8, 0x00#8, 0xFC#8, 0x00#8, 0x10#8, 0x44#8, 0xA0#8] := by decide
/-- V-ENC-3, V-ENC-4, V-ENC-5: decimal inputs. -/
theorem test_pack565 :
    pack565 ⟨200#8, 103#8, 55#8⟩ = (0xCB#8, 0x26#8) ∧ rgb565 0xCB#8 0x26#8 = ⟨200#8, 100#8, 48#8⟩ ∧
    pack565 ⟨0x10#8, 0x44#8, 0xA0#8⟩ = (0x12#8, 0x34#8) ∧ pack565 ⟨0xFF#8, 0xFF#8, 0xFF#8⟩ = (0xFF#8, 0xFF#8) := by decide
/-- V-ENC-6 (2 bits per pixel) and V-ENC-7. -/
theorem test_indexed :
    let pal : Memory := bytesAt 0x20000400
      [0#8, 0x10#8, 0x20#8, 0#8, 1#8, 0x11#8, 0x21#8, 0#8, 2#8, 0x12#8, 0x22#8, 0#8, 3#8, 0x13#8, 0x23#8, 0#8]
    let s : State := { enc 4#32 [] with enc.pal := 0x20000400#32, enc.palLen := 4#9, mem := pal ++ bytesAt 0x20002000 [0x1B#8] }
    dest (after (.wEncCtrlIndexed 2#4 0#2 false) s) 12
      = [0x20#8, 0x10#8, 0#8, 0x21#8, 0x11#8, 1#8, 0x22#8, 0x12#8, 2#8, 0x23#8, 0x13#8, 3#8] := by decide
/-- V-ENC-11, V-ENC-12, V-ENC-26. -/
theorem test_indexed_errors :
    let s : State := { enc 1#32 [1#8] with enc.pal := 0x20000400#32, enc.palLen := 1#9 }
    (after (.wEncCtrlIndexed 8#4 0#2 false) s).enc.err = .paletteRange ∧ (after (.wEncCtrlIndexed 8#4 0#2 false) s).mem = s.mem ∧
    (after (.wEncCtrlIndexed 3#4 0#2 false) { enc 2#32 [] with enc.src := 0x2003FFFE#32 }).enc.err = .unsupportedPixelFormat := by
  decide
/-- V-ENC-13, V-ENC-15. -/
theorem test_glyph :
    let dst : List Byte := [0x11#8, 0x22#8, 0x33#8, 0x80#8, 0x41#8, 0xFF#8, 0x77#8, 0x88#8, 0x99#8]
    let s : State := { enc 3#32 [] with enc.fg := 0xFF0000#24, mem := bytesAt 0x20002000 [0xA0#8] ++ bytesAt 0x20003000 dst }
    dest (after (.wEncCtrlGlyph 0#4 2#2 false) s) 9
      = [0xFF#8, 0#8, 0#8, 0x80#8, 0x41#8, 0xFF#8, 0xFF#8, 0#8, 0#8] ∧
    dest (after (.wEncCtrlGlyph 0#4 1#2 false) s) 9
      = [0xFF#8, 0#8, 0#8, 0x40#8, 0x20#8, 0x7F#8, 0xFF#8, 0#8, 0#8] := by decide
/-- V-ENC-16: MODE 3 overwrites. -/
theorem test_glyph_overwrites :
    dest (after (.wEncCtrlGlyph 0#4 3#2 false) { enc 3#32 [0xA0#8] with enc.bg := 0xFFFFFF#24 }) 9
      = [0#8, 0#8, 0#8, 0xFF#8, 0xFF#8, 0xFF#8, 0#8, 0#8, 0#8] := by decide
/-- V-ENC-17, V-ENC-24. -/
theorem test_bitrev :
    dest (after (.wEncCtrlBitrev 0#4 0#2 false) (enc 4#32 [0x23#8, 0xB4#8, 0x01#8, 0xFF#8])) 4
      = [0xC4#8, 0x2D#8, 0x80#8, 0xFF#8] ∧
    (after (.wEncCtrlBitrev 0#4 0#2 false) { enc 4#32 [] with enc.dst := 0x20002000#32 }).faults = [.bufferRace] := by decide
/-- V-ENC-18, V-ENC-19. -/
theorem test_transpose :
    dest (after (.wEncCtrlTranspose 0#4 0#2 false) { enc 0#32 [0x80#8, 0x40#8, 0xC0#8] with enc.dim := 0x00020003#32 }) 2
      = [0xA0#8, 0x60#8] ∧
    dest (after (.wEncCtrlTranspose 0#4 0#2 true) { enc 0#32 [0xA0#8, 0x60#8] with enc.dim := 0x00020003#32 }) 3
      = [0x80#8, 0x40#8, 0xC0#8] := by decide
/-- V-ENC-20, V-ENC-21. -/
theorem test_transpose_edges :
    dest (after (.wEncCtrlTranspose 0#4 0#2 true) { enc 0#32 [0xFF#8, 0x80#8] with enc.dim := 0x00010009#32 }) 9
      = List.replicate 9 0x80#8 ∧
    (after (.wEncCtrlTranspose 0#4 0#2 false) { enc 0#32 [] with enc.dim := 0x00000003#32 }).mem = [] := by decide
/-- V-ENC-23, V-ENC-25, V-ENC-28, V-ENC-29. -/
theorem test_encoder_control :
    (after (.wEncCtrlReserved2 7#4 0#4 0#2 false) C0).enc.err = .unsupportedPixelFormat ∧
    got .rEncCtrl (after (.wEncCtrlReserved2 7#4 0#4 0#2 false) C0) = [7#32] ∧
    got .rEncStatus (after (.wEncCtrlRgb565 0#4 0#2 false) { enc 2#32 [] with enc.src := 0x2003FFFE#32 }) = [5#32] ∧
    got .rEncCtrl (after (.wEncCtrlSet 2#4 1#4 2#2 false) C0) = [0x212#32] ∧
    got .rEncPalLen (after (.wEncPalLen 0x1FF#9) C0) = [0x1FF#32] := by decide

/-- V-WIN-1, V-WIN-2. -/
theorem test_window_start :
    let s : State := { C0 with win := { C0.win with x := 0x031F0010#32, y := 0x01DF0020#32 } }
    (after (.wWinCtrlStart false) s).win.pending = [0x02A#9, 0x100#9, 0x110#9, 0x103#9, 0x11F#9, 0x02B#9, 0x100#9, 0x120#9,
      0x101#9, 0x1DF#9, 0x02C#9] ∧
    (after (.wWinCtrlStart true) s).win.pending = [0x02A#9, 0x100#9, 0x120#9, 0x101#9, 0x1DF#9, 0x02B#9, 0x100#9, 0x110#9,
      0x103#9, 0x11F#9, 0x02C#9] := by decide
/-- V-WIN-3, V-WIN-4. -/
theorem test_window_invalid :
    got .rWinStatus (after (.wWinCtrlStart false) { C0 with win.x := 0x00040005#32 }) = [3#32] ∧
    got .rWinStatus (after (.wWinCtrlStart false) { C0 with win.y := 0x00040005#32 }) = [3#32] := by decide
/-- V-WIN-6, V-WIN-7, V-WIN-8, V-WIN-10. -/
theorem test_window_busy :
    let s : State := { C0 with win.pending := [0x02A#9] }
    got .rWinCtrl s = [0x40000000#32] ∧ (after (.wWinX 0#16 0#16) s).faults = [.windowBusy] ∧
    (after (.wTxqCw 0x29#32) s).faults = [.queueConflict] ∧
    (after (.wWinCtrlStart false) (busyDma .b1 true (.tx .cw) 1#32 0x20000000 0x20000001)).faults = [.queueConflict] := by decide
/-- V-WIN-12. -/
theorem test_window_set : got .rWinCtrl (after (.wWinCtrlSet true) C0) = [1#32] := by decide

/-- R131: DELAY. -/
theorem test_delay : (after (.delay 10000) C0).trace = [.delay 10000] := by decide
/-- R96: the pin changes of a write cycle and of a read cycle, in which DC is 1. -/
theorem test_pinChanges :
    pinChanges (.w true 0x3F#8) = [.d 0x3F#8, .dc true, .wr false, .wr true] ∧
    pinChanges (.rd 0x5A#8) = [.dc true, .rd false, .sample 0x5A#8, .rd true] := by decide
/-- R13, R80: with BASE = 0xFFFFFFF0 the register at OFF 0x014 lies at address 4, and no memory may lie there. -/
theorem test_base_wraps :
    let p := { Params.testChoices with base := 0xFFFFFFF0#32 }
    hostDecode p (.bus false 32 4#32 0#32) = .ok .rCfgStatus ∧ p.ok = true ∧
    ({ p with memRanges := [⟨0x103, 0x200⟩] } : Params).ok = false ∧
    ({ p with memRanges := [⟨0x104, 0x200⟩] } : Params).ok = true := by decide
/-- R13, R131: a store past the top of memory goes on at address 0. -/
theorem test_memw_wraps :
    let s : State := { C0 with params := { C0.params with memRanges := [⟨0, 0x10⟩, ⟨0xFFFFFFF0, 0x100000000⟩] } }
    (after (.memw 0xFFFFFFFF#32 .b2 0xABCD#32) s).mem = [(0, 0xAB#8), (0xFFFFFFFF, 0xCD#8)] ∧
    got (.memr 0xFFFFFFFF#32 .b2) (after (.memw 0xFFFFFFFF#32 .b2 0xABCD#32) s) = [0xABCD#32] := by decide
/-- R129: pseudo-instructions as words, from P2 and P3. -/
theorem test_assembler :
    asmCmd 0x36#32 = [.access 0x106000000036#48] ∧ asmEnable .cdr = [.access 0x104000000008#48] ∧
    asmSubmit 0x20000000#32 3#32 2#32 0#32 2#32
      = [.access 0x108020000000#48, .access 0x108400000003#48, .access 0x108800000025#48] ∧
    asmWin 5#32 7#32 5#32 7#32 0#32
      = [.access 0x110000050005#48, .access 0x110400070007#48, .access 0x110880000000#48] := by decide

/-- W4 and W13: `awaitCompletion` of no units and `setWindow` of an invalid window return at once. -/
theorem test_procedures_return_at_once :
    (procAwaitCompletion Params.testChoices ⟨0⟩ 2304).result = some .ok ∧
    (procSetWindow 5#16 0#16 4#16 0#16 false).result = some (.err .invalidWindow) := by decide

/-! ## Witnesses: for each statement with hypotheses, a state and operands that meet them, clause by clause -/

/-- The fixed bits and mask of every `Encodes` in the statements. -/
def encodings : List (AccessWord × AccessWord) :=
  [(0x100000000000#48, 0xFFFF00000000#48), (0x100400000000#48, 0xFFFF00000000#48), (0x100800000000#48, 0xFFFF00000000#48),
    (0x100C00000000#48, 0xFFFF00000000#48), (0x101000000001#48, 0xFFFF00000001#48), (0x101000000000#48, 0xFFFF00000001#48),
    (0x102000000000#48, 0xFFFF00000000#48), (0x104000000000#48, 0xFFFF00000000#48), (0x104800000000#48, 0xFFFF00000000#48),
    (0x106000000000#48, 0xFFFF00000000#48), (0x106400000000#48, 0xFFFF00000000#48), (0x106800000000#48, 0xFFFF00000000#48),
    (0x106C00000000#48, 0xFFFF00000000#48), (0x108000000000#48, 0xFFFF00000000#48), (0x108400000000#48, 0xFFFF00000000#48),
    (0x108800000000#48, 0xFFFF00000001#48), (0x108800000001#48, 0xFFFF00000001#48), (0x108C00000000#48, 0xFFFF00000000#48),
    (0x10C000000000#48, 0xFFFF00000000#48), (0x10C400000000#48, 0xFFFF00000000#48), (0x10C800000000#48, 0xFFFF00000000#48),
    (0x10CC00000000#48, 0xFFFF00000000#48), (0x10D000000000#48, 0xFFFF00000000#48), (0x10D400000000#48, 0xFFFF00000000#48),
    (0x10D800000000#48, 0xFFFF00000000#48), (0x10DC00000000#48, 0xFFFF00000000#48), (0x10E000000000#48, 0xFFFF80000000#48),
    (0x10E080000000#48, 0xFFFF8000000F#48), (0x10E080000001#48, 0xFFFF8000000F#48), (0x10E080000002#48, 0xFFFF8000000F#48),
    (0x10E080000003#48, 0xFFFF8000000F#48), (0x10E080000004#48, 0xFFFF8000000F#48), (0x10E080000005#48, 0xFFFF8000000F#48),
    (0x10E080000006#48, 0xFFFF8000000E#48), (0x10E080000008#48, 0xFFFF80000008#48), (0x110000000000#48, 0xFFFF00000000#48),
    (0x110400000000#48, 0xFFFF00000000#48), (0x110800000000#48, 0xFFFF80000000#48), (0x110880000000#48, 0xFFFF80000000#48),
    (0x110C00000000#48, 0xFFFF00000000#48)]

/-- Each `Encodes` speaks of at least two words: the other bits all 0, and all 1. -/
theorem witness_Encodes :
    (encodings.all fun p => p.1 &&& p.2 == p.1 && (p.1 ||| ~~~p.2) &&& p.2 == p.1) = true := by decide

theorem witness_DecodeOfEncodeIsTheInstruction :
    WellFormed (.wEncCtrlReserved3 15#4 15#4 3#2 true) = true ∧ WellFormed (.wDmaCtrlSubmit 3#2 true 7#3) = true := by decide

theorem witness_DecodedInstructionsAreWellFormed :
    decode (.access 0x10E080000008#48) = .ok (.wEncCtrlReserved3 8#4 0#4 0#2 false) := by decide

theorem witness_DecodingDropsOnlyReservedBits :
    decode (.access 0x10E0FFFFFFFF#48) = .ok (.wEncCtrlReserved3 15#4 15#4 3#2 true) := by decide

theorem witness_InvalidAccessWordsAreRefused :
    InvalidAccess 0x204000000000#48 ∧ InvalidAccess 0x004200000000#48 ∧ InvalidAccess 0x003C00000000#48 ∧
    InvalidAccess 0x0040000000FF#48 ∧ InvalidAccess 0x111000000000#48 ∧ InvalidAccess 0x006C00000000#48 ∧
    ({ S0 with host.program := [.access 0x006C00000000#48] } : State).host.program = .access 0x006C00000000#48 :: [] := by
  refine ⟨?_, ?_, ?_, ?_, ?_, ?_, rfl⟩ <;> unfold InvalidAccess <;> decide

theorem witness_HostStepRunsTheDecodedOperation :
    (∀ op ∈ [HostOp.access 0x101000000000#48, .access 0x007000000000#48, .memw 0#32 .b1 0#32, .bus false 32 0x40000044#32 0#32],
      let s := turn .host { S0 with host.program := [op] };
      s.faults = [] ∧ s.refused = none ∧ s.nextTurn = .host ∧ s.host.program = op :: [] ∧
        ∃ i, hostDecode s.params op = .ok i ∧ ∃ t, exec i s.tick.unhold = .next t) ∧
    (∀ op ∈ [HostOp.access 0x003C00000000#48, .bus false 16 0x40000044#32 0#32, .bus false 32 0x50000000#32 0#32],
      let s := turn .host { S0 with host.program := [op] };
      s.faults = [] ∧ s.refused = none ∧ s.nextTurn = .host ∧ s.host.program = op :: [] ∧
        ∃ e, hostDecode s.params op = .error e) ∧
    (16 ≠ 32 ∧ 4#32 = 0xFFFFFFF0#32 + (0x014#12).zeroExtend 32 ∧
      ∀ off : BitVec 12, 0x50000000#32 ≠ 0x40000000#32 + off.zeroExtend 32) := by
  refine ⟨?_, ?_, by decide, by decide, fun off h => ?_⟩
  · intro op h
    simp only [List.mem_cons, List.not_mem_nil, or_false] at h
    rcases h with rfl | rfl | rfl | rfl <;> exact ⟨rfl, rfl, rfl, rfl, _, rfl, _, rfl⟩
  · intro op h
    simp only [List.mem_cons, List.not_mem_nil, or_false] at h
    rcases h with rfl | rfl | rfl <;> exact ⟨rfl, rfl, rfl, rfl, _, rfl⟩
  · have := congrArg BitVec.toNat h
    simp at this
    omega

theorem witness_EngineStepRunsItsUnit :
    (let s := turn (.engine .cw) { enabled 1#4 with eng.txqCw := [0x12A#32] };
      s.nextTurn = .engine .cw ∧ s.active .cw = true ∧ s.eng.txqCw = 0x12A#32 :: [] ∧ s.faults = [] ∧ s.refused = none) ∧
    (let s := turn (.engine .dwb) { enabled 2#4 with eng.txqDwb := [1#32] };
      s.nextTurn = .engine .dwb ∧ s.active .dwb = true ∧ s.eng.txqDwb = 1#32 :: []) ∧
    (let s := turn (.engine .dwt) { enabled 4#4 with eng.txqDwt := [1#32] };
      s.nextTurn = .engine .dwt ∧ s.active .dwt = true ∧ s.eng.txqDwt = 1#32 :: []) ∧
    (let s := turn (.engine .cdr) { enabled 8#4 with eng.txqCdr := [1#32] };
      s.nextTurn = .engine .cdr ∧ s.active .cdr = true ∧ s.eng.txqCdr = 1#32 :: [] ∧ s.eng.phase = .count) ∧
    (let s := turn (.engine .cdr) { enabled 8#4 with eng.txqCdr := [1#32], eng.phase := .cmd 0#16 };
      s.nextTurn = .engine .cdr ∧ s.active .cdr = true ∧ s.eng.txqCdr = 1#32 :: [] ∧ s.eng.phase = .cmd 0#16) ∧
    let s := turn (.engine .cdr) { enabled 8#4 with eng.rxq := [1#8, 2#8, 3#8], eng.phase := .read 0xFFFF#16 true };
    s.nextTurn = .engine .cdr ∧ s.active .cdr = true ∧ s.eng.phase = .read 0xFFFF#16 true ∧ (0xFFFF#16 : BitVec 16) ≠ 0#16 ∧
      s.eng.rxq.length < s.params.qDepth := by decide

theorem witness_StoppedRunsStayStopped :
    ({ S0 with faults := [.reInit] } : State).faults = .reInit :: [] ∧
    ({ S0 with refused := some .badAccess } : State).faults = [] ∧
    ({ S0 with refused := some .badAccess } : State).refused = some .badAccess := by decide

theorem witness_IdleAgentsChangeNothing :
    (∀ t ∈ [Turn.engine .cw, .engine .cdr, .dmaUnit, .dmaAck, .window],
      (turn t C0).faults = [] ∧ (turn t C0).refused = none ∧ (turn t C0).nextTurn ≠ .host ∧
        enabledTurn (turn t C0) (turn t C0).nextTurn = false) ∧
    (turn .host C0).nextTurn = .host ∧ (turn .host C0).host.program = [] := by decide

theorem witness_ConfigRegistersStoreUntilInit : S0.cfg.configured = false ∧ C0.cfg.configured = true := by decide

theorem witness_InitConfiguresAndDrivesThePins :
    C0.cfg.configured = true ∧ S0.cfg.configured = false ∧ S0.cfg.wclk = 0#32 ∧
    (let c := { beforeInit.cfg with rclk := 0#32 };
      c.configured = false ∧ c.rclk = 0#32) ∧
    (let c := { beforeInit.cfg with pins := 0x0B0A0700#32 };
      c.configured = false ∧ c.wclk ≠ 0#32 ∧ c.rclk ≠ 0#32 ∧ pinConflict S0.params c = true) ∧
    (let c := { beforeInit.cfg with pins2 := 0x1D0C#16 };
      c.configured = false ∧ c.wclk ≠ 0#32 ∧ c.rclk ≠ 0#32 ∧ pinConflict S0.params c = false) ∧
    pinConflict S0.params { beforeInit.cfg with pins2 := 0x1E0C#16 } = true := by decide

theorem witness_LimitsAreTheFormulas :
    Params.testChoices.maxFill = 384000 ∧ Params.testChoices.bytesPerPixel = 3 ∧ C0.cfg.rclk = 10000000#32 ∧
    (let p := { Params.testChoices with maxFill := 1, bytesPerPixel := 1 };
      p.maxFill * p.bytesPerPixel = 1) ∧ ({ C0.cfg with rclk := 4000000000#32 } : Cfg).rclk = 4000000000#32 := by decide

/-- The state C0 with three full queues and one entry short. -/
def filled : State :=
  { enabled 2#4 with
    eng.txqCw := [1#32, 2#32, 3#32, 4#32], eng.txqDwb := [1#32, 2#32, 3#32], eng.rxq := [1#8, 2#8, 3#8, 4#8] }

theorem witness_ConfigAndEngineReadsReturnTheirRegister : filled.params.ok = true ∧ QueueInv filled :=
  ⟨by decide, by decide, by decide, by decide, by decide, by decide, by decide⟩

theorem witness_EnableKeepsOneEngineActive :
    (1#4 ≠ 0#4 ∧ S0.cfg.configured = false) ∧
    (C0.cfg.configured = true ∧ 3#4 ∉ [0#4, 1#4, 2#4, 4#4, 8#4] ∧ 15#4 ∉ [0#4, 1#4, 2#4, 4#4, 8#4]) ∧
    (2#4 ∈ [0#4, 1#4, 2#4, 4#4, 8#4] ∧ (enabled 1#4).eng.enable ≠ 0#4 ∧ 2#4 ≠ 0#4 ∧ 2#4 ≠ (enabled 1#4).eng.enable) ∧
    (S0.eng.enable ≠ 8#4 ∧ (0#4 : BitVec 4) = 0#4) ∧
    ((enabled 8#4).eng.enable = 8#4 ∧ (enabled 8#4).eng.phase = .count) ∧
    (let s : State := { enabled 8#4 with eng.phase := .cmd 5#16 };
      s.eng.enable = 8#4 ∧ 0#4 ≠ 8#4 ∧ s.eng.phase = .cmd 5#16) ∧
    let s : State := { enabled 8#4 with eng.phase := .read 0#16 true };
    s.eng.enable = 8#4 ∧ 0#4 ≠ 8#4 ∧ s.eng.phase = .read 0#16 true := by decide

theorem witness_ClearEmptiesSelectedQueues :
    (bitAt 4#4 (engineIndex .dwt) = true ∧ bitAt (enabled 4#4).eng.enable (engineIndex .dwt) = true) ∧
    ((∀ e ∈ engines, bitAt 15#4 (engineIndex e) = true → bitAt C0.eng.enable (engineIndex e) = false) ∧
      bitAt 15#4 (engineIndex .cdr) = true ∧ (busyDma .b1 true .rx 1#32 0x20000000 0x20000001).dma.busy = true ∧
      (busyDma .b1 true .rx 1#32 0x20000000 0x20000001).dma.qsel = .rx) ∧
    C0.dma.busy = false ∧ C0.win.pending = [] := by decide

theorem witness_PushesEnterTheirQueue :
    (let s := busyDma .b1 true (.tx .cdr) 1#32 0x20000000 0x20000001;
      s.dma.busy = true ∧ s.dma.qsel = .tx .cdr) ∧
    ({ C0 with win.pending := [1#9] } : State).win.pending ≠ [] ∧
    (filled.dma.busy = false ∧ filled.win.pending = [] ∧ filled.params.qDepth ≤ (filled.txq .cw).length ∧
      (filled.txq .dwb).length < filled.params.qDepth) := by decide

theorem witness_PopReturnsTheOldestByte :
    (let s := busyDma .b1 true .rx 1#32 0x20000000 0x20000001;
      s.dma.busy = true ∧ s.dma.qsel = .rx) ∧
    ¬(C0.dma.busy = true ∧ C0.dma.qsel = .rx) ∧ C0.eng.rxq = [] ∧ filled.eng.rxq = 1#8 :: [2#8, 3#8, 4#8] := by decide

theorem witness_WriteUnitsBecomeWriteCycles :
    bitAt ({ enabled 1#4 with eng.txqCw := [1#32] } : State).eng.enable 0 = true ∧
    ({ enabled 1#4 with eng.txqCw := [1#32] } : State).eng.txqCw = 1#32 :: [] ∧
    bitAt ({ enabled 2#4 with eng.txqDwb := [1#32] } : State).eng.enable 1 = true ∧
    ({ enabled 2#4 with eng.txqDwb := [1#32] } : State).eng.txqDwb = 1#32 :: [] ∧
    bitAt ({ enabled 4#4 with eng.txqDwt := [1#32] } : State).eng.enable 2 = true ∧
    ({ enabled 4#4 with eng.txqDwt := [1#32] } : State).eng.txqDwt = 1#32 :: [] := by decide

theorem witness_CdrUnitsRunTheReadTransaction :
    bitAt (enabled 8#4).eng.enable 3 = true ∧
    (let s : State := { enabled 8#4 with eng.txqCdr := [1#32] };
      s.eng.txqCdr = 1#32 :: [] ∧ s.eng.phase = .count) ∧
    (let s : State := { enabled 8#4 with eng.txqCdr := [1#32], eng.phase := .cmd 0#16 };
      s.eng.txqCdr = 1#32 :: [] ∧ s.eng.phase = .cmd 0#16) ∧
    let s : State := { enabled 8#4 with eng.phase := .read 1#16 false };
    s.eng.phase = .read 1#16 false ∧ 1#16 ≠ 0#16 ∧ s.eng.rxq.length < s.params.qDepth := by decide

theorem witness_CdrRestoresTheDataLane :
    let s := turn (.engine .cdr) { enabled 8#4 with eng.phase := .read 0#16 true };
    s.faults = [] ∧ s.refused = none ∧ s.nextTurn = .engine .cdr ∧ bitAt s.eng.enable 3 = true ∧
      s.eng.phase = .read 0#16 true := by decide

theorem witness_DmaUnitStepMovesOneUnit :
    (let s := turn .dmaUnit (busyDma .b4 false (.tx .dwt) 1#32 0x20000000 0x20000004);
      s.faults = [] ∧ s.refused = none ∧ s.nextTurn = .dmaUnit ∧ s.dma.busy = true ∧ s.dma.count ≠ 0#32 ∧
        s.dma.abortPending = false ∧ s.dma.qsel = .tx .dwt ∧ (s.txq .dwt).length < s.params.qDepth) ∧
    let s := turn .dmaUnit { busyDma .b1 true .rx 2#32 0x20000000 0x20000002 with eng.rxq := [1#8], dma.abortPending := true, dma.grace := true };
    s.nextTurn = .dmaUnit ∧ s.dma.busy = true ∧ s.dma.count ≠ 0#32 ∧ s.dma.grace = true ∧ s.dma.qsel = .rx ∧
      s.eng.rxq = 1#8 :: [] := by decide

/-- An aborted transfer, about to be acknowledged. -/
def aborting : State :=
  turn .dmaAck { busyDma .b4 false (.tx .dwt) 2#32 0x20000000 0x20000004 with dma.abortPending := true, dma.grace := true }

theorem witness_DmaAckStepStopsTheChannel :
    aborting.faults = [] ∧ aborting.refused = none ∧ aborting.nextTurn = .dmaAck ∧ aborting.dma.abortPending = true := by decide

theorem witness_DescriptorWritesStoreWhileIdle :
    (busyDma .b1 true .rx 1#32 0x20000000 0x20000001).dma.busy = true ∧ C0.dma.busy = false ∧
    (3#2 = 3#2 ∨ 5 ≤ (5#3 : BitVec 3).toNat) ∧ (4#3 = 4#3 ∧ 1#2 ≠ 0#2) ∧
    ¬(0#2 = 3#2 ∨ 5 ≤ (4#3 : BitVec 3).toNat ∨ (4#3 = 4#3 ∧ 0#2 ≠ 0#2)) := by decide

theorem witness_SubmitStartsTheTransfer :
    (busyDma .b1 true .rx 1#32 0x20000000 0x20000001).dma.busy = true ∧
    (C0.dma.busy = false ∧ C0.cfg.configured = true ∧ S0.dma.busy = false ∧ S0.cfg.configured = false) ∧
    5 ≤ (7#3 : BitVec 3).toNat ∧ ¬(2#2 = 3#2 ∨ 5 ≤ (2#3 : BitVec 3).toNat ∨ (2#3 = 4#3 ∧ 2#2 ≠ 0#2)) ∧
    ({ C0 with win.pending := [1#9] } : State).win.pending ≠ [] ∧ C0.win.pending = [] ∧ C0.dma.count = 0#32 ∧
    (0x20000001#32).toNat % sizeBytes .b4 ≠ 0 ∧ ¬InMemory C0.params ⟨0x2003FFFC, 8⟩ ∧
    (0x2003FFFC#32).toNat % sizeBytes .b4 = 0 ∧ InMemory C0.params ⟨0x2003FFFC, 4⟩ := by
  simp only [inMemory_iff]
  decide

theorem witness_AbortRequestMarksABusyChannel :
    (let s := busyDma .b1 true .rx 1#32 0x20000000 0x20000001;
      s.dma.busy = true ∧ s.dma.abortPending = false) ∧ C0.dma.busy = false ∧ aborting.dma.abortPending = true := by decide

theorem aborting_dmaInv : DmaInv aborting where
  abortBusy := by decide
  graceAbort := by decide
  busyCount := by decide
  busyConfigured := by decide
  rxBytes := by decide
  inRange := by decide
  validRange := fun _ => ⟨by decide, fun a h1 h2 => by
    have h1' : 0x20000000 ≤ a := h1
    have h2' : a < 0x20000004 := h2
    simp [memValid, aborting, turn, busyDma, C0, State.reset, State.resetWith, Params.testChoices]
    omega⟩
  aligned := by decide
  oneFeeder := by decide

theorem witness_AbortedChannelMovesAtMostOneUnit :
    DmaInv aborting ∧ aborting.dma.abortPending = true ∧ ∃ t, step aborting = .next t :=
  ⟨aborting_dmaInv, by decide, _, rfl⟩

/-! ### A weakly fair run with a pending abort -/

/-- Nothing is enabled, whoever's turn it is. -/
def idle (s : State) : Prop :=
  s.faults = [] ∧ s.refused = none ∧ s.eng.enable = 0#4 ∧ s.dma.busy = false ∧ s.dma.abortPending = false ∧
    s.win.pending = [] ∧ s.host.program = []

theorem idle_disabled {s : State} (h : idle s) (t : Turn) : enabledTurn s t = false := by
  obtain ⟨-, -, he, hb, ha, hw, hp⟩ := h
  have hi : ∀ e, s.active e = false := by intro e; simp [State.active, he, bitAt]
  cases t with
  | host => simp [enabledTurn, hostEnabled, hp]
  | engine e => simp [enabledTurn, engineFetch, hi, State.restoreEnabled]
  | dmaUnit => simp [enabledTurn, State.dmaUnitEnabled, hb]
  | dmaAck => simpa [enabledTurn] using ha
  | window => simp [enabledTurn, State.winBusy, hw]

theorem idle_step {s : State} (h : idle s) : step s = .next s.tick := by
  obtain ⟨hf, hr, he, hb, ha, hw, hp⟩ := h
  have hi : ∀ e, s.tick.active e = false := by intro e; simp [State.active, State.tick, he, bitAt]
  simp only [step, stepState, hf, hr]
  cases s.nextTurn with
  | host => simp [runTurn, runHost, State.tick, hp]
  | engine e => simp [runTurn, runEngine, engineFetch, hi, State.restoreEnabled]
  | dmaUnit => simp [runTurn, State.dmaUnit, State.dmaUnitEnabled, State.tick, hb]
  | dmaAck => simp [runTurn, State.dmaAck, State.tick, ha]
  | window => simp [runTurn, State.winStep, State.tick, hw]

/-- The aborted transfer acknowledged, and then nothing more. -/
def abortRun : Nat → State
  | 0 => aborting
  | 1 => aborting.tick.dmaAck
  | n + 2 => (abortRun (n + 1)).tick

theorem abortRun_idle : ∀ n, idle (abortRun (n + 1))
  | 0 => by unfold idle; decide
  | n + 1 => abortRun_idle n

theorem witness_AbortIsAcknowledgedUnderFairness :
    IsRun abortRun ∧ WeaklyFair abortRun ∧ (abortRun 0).dma.abortPending = true := by
  refine ⟨?_, fun t n => ⟨n + 1, by omega, .inl (idle_disabled (abortRun_idle n) t)⟩, by decide⟩
  intro n
  match n with
  | 0 => rfl
  | n + 1 => exact idle_step (abortRun_idle n)

/-! ### The encoder -/

/-- A bitmap that is reversed in place but for its last byte. -/
def inPlace : State := { enc 4#32 [] with enc.dst := 0x20002003#32 }

/-- Each way through the checks: an unimplemented BPP; a source that ends past memory; an overlap by one byte; a race of an
input alone with a transfer out of RXQ; an index past the palette; and all checks passed. -/
theorem witness_EncoderStartChecksInOrder :
    3#4 ∉ [1#4, 2#4, 4#4, 8#4] ∧ 8#4 ∈ [1#4, 2#4, 4#4, 8#4] ∧
    ¬InMemory S0.params ⟨0x2003FFFE, 2 * 2⟩ ∧
    ((∀ r ∈ [(⟨0x20002003, 4⟩ : Span), ⟨0x20002000, 4⟩], InMemory inPlace.params r) ∧
      EncRaces inPlace [⟨0x20002000, 4⟩] ⟨0x20002003, 4⟩) ∧
    EncRaces (busyDma .b1 true .rx 1#32 0x20002003 0x20002004) [⟨0x20002000, 4⟩] ⟨0x20003000, 4⟩ ∧
    (let s : State := { enc 1#32 [1#8] with enc.pal := 0x20000400#32, enc.palLen := 1#9 };
      EncAdmits s [⟨s.enc.src.toNat, (1 * 8 + 7) / 8⟩, ⟨s.enc.pal.toNat, 4 * min s.enc.palLen.toNat 256⟩] ⟨s.enc.dst.toNat, 3⟩ ∧
        ∃ k < 1, min s.enc.palLen.toNat 256 ≤ (s.mem.read (s.enc.src.toNat + k * 8 / 8)).toNat / 2 ^ (8 - 8 - k * 8 % 8) % 2 ^ 8) ∧
    (let s := enc 3#32 [0xA0#8];
      EncAdmits s [⟨s.enc.src.toNat, (3 + 7) / 8⟩] ⟨s.enc.dst.toNat, 9⟩) := by
  refine ⟨by decide, by decide, ?_, ⟨(State.encRangesOk_iff _ _ _).1 (by decide), (State.encRace_iff _ _ _).1 (by decide)⟩,
    (State.encRace_iff _ _ _).1 (by decide), ⟨(State.encAdmits_iff _ _ _).2 (by decide), by decide⟩,
    (State.encAdmits_iff _ _ _).2 (by decide)⟩
  rw [inMemory_iff]
  decide

/-- The last range that fits: its end is the end of memory. -/
theorem witness_Rgb565ExpandsEachPixel :
    let s : State := { enc 2#32 [] with enc.src := 0x2003FFFC#32 };
    EncAdmits s [⟨s.enc.src.toNat, 2 * s.enc.count.toNat⟩] ⟨s.enc.dst.toNat, 3 * s.enc.count.toNat⟩ := by
  simp only [State.encAdmits_iff]
  decide

theorem witness_IndexedLooksUpThePalette :
    3#4 ∉ [1#4, 2#4, 4#4, 8#4] ∧ 1#4 ∈ [1#4, 2#4, 4#4, 8#4] ∧
    (let s : State := { enc 3#32 [0xA0#8] with enc.pal := 0x20000400#32, enc.palLen := 2#9 };
      EncAdmits s [⟨s.enc.src.toNat, (3 * 1 + 7) / 8⟩, ⟨s.enc.pal.toNat, 4 * min s.enc.palLen.toNat 256⟩] ⟨s.enc.dst.toNat, 9⟩ ∧
        ∀ k < 3, (s.mem.read (s.enc.src.toNat + k * 1 / 8)).toNat / 2 ^ (8 - 1 - k * 1 % 8) % 2 ^ 1 < min s.enc.palLen.toNat 256) ∧
    let s : State := { enc 1#32 [1#8] with enc.pal := 0x20000400#32, enc.palLen := 1#9 };
    EncAdmits s [⟨s.enc.src.toNat, (1 * 8 + 7) / 8⟩, ⟨s.enc.pal.toNat, 4 * min s.enc.palLen.toNat 256⟩] ⟨s.enc.dst.toNat, 3⟩ ∧
      ∃ k < 1, min s.enc.palLen.toNat 256 ≤ (s.mem.read (s.enc.src.toNat + k * 8 / 8)).toNat / 2 ^ (8 - 8 - k * 8 % 8) % 2 ^ 8 := by
  simp only [State.encAdmits_iff]
  decide

theorem witness_GlyphAppliesItsMode :
    let s := enc 9#32 [0xFF#8, 0x80#8];
    EncAdmits s [⟨s.enc.src.toNat, (9 + 7) / 8⟩] ⟨s.enc.dst.toNat, 27⟩ := by
  simp only [State.encAdmits_iff]
  decide

/-- A destination that begins where the source ends. -/
theorem witness_BitrevReversesEachByte :
    let s : State := { enc 4#32 [] with enc.dst := 0x20002004#32 };
    EncAdmits s [⟨s.enc.src.toNat, 4⟩] ⟨s.enc.dst.toNat, 4⟩ := by
  simp only [State.encAdmits_iff]
  decide

theorem witness_TransposeTurnsTheLayout :
    let s : State := { enc 0#32 [0x80#8, 0x40#8, 0xC0#8] with enc.dim := 0x00020003#32 };
    (slice s.enc.dim 0 16).toNat = 3 ∧ (slice s.enc.dim 16 16).toNat = 2 ∧
      EncAdmits s [⟨s.enc.src.toNat, 3 * 1⟩] ⟨s.enc.dst.toNat, 2 * 1⟩ ∧
      EncAdmits s [⟨s.enc.src.toNat, 2 * 1⟩] ⟨s.enc.dst.toNat, 3 * 1⟩ := by
  simp only [State.encAdmits_iff]
  decide

/-- W = 8, so that the second clause of the statement speaks too. -/
theorem witness_TransposedRowsAreGlyphStreams :
    let s : State := { enc 0#32 [] with enc.dim := 0x00020008#32 };
    EncAdmits s [⟨s.enc.src.toNat, 8 * ((2 + 7) / 8)⟩] ⟨s.enc.dst.toNat, 2 * ((8 + 7) / 8)⟩ ∧
      ∃ t, exec (.wEncCtrlTranspose 0#4 0#2 false) s = .next t :=
  ⟨(State.encAdmits_iff _ _ _).2 (by decide), _, rfl⟩

/-! ### The window -/

/-- C0 with one unit pending. -/
def pendingOne : State := { C0 with win.pending := [0x102#9] }

theorem witness_WindowRegistersStoreWhileIdle : C0.win.pending = [] ∧ pendingOne.win.pending ≠ [] := by decide

theorem witness_WindowStartQueuesItsUnits :
    pendingOne.win.pending ≠ [] ∧ C0.win.pending = [] ∧
    (let s := busyDma .b1 true (.tx .cw) 1#32 0x20000000 0x20000001;
      s.dma.busy = true ∧ s.dma.qsel = .tx .cw ∧ s.win.pending = []) ∧
    (let s : State := { C0 with win.x := 0x00040005#32 };
      ¬(s.dma.busy = true ∧ s.dma.qsel = .tx .cw) ∧ slice s.win.x 16 16 < slice s.win.x 0 16) ∧
    (let s : State := { C0 with win.y := 0xFFFE_FFFF#32 };
      slice s.win.y 16 16 < slice s.win.y 0 16) ∧
    let s : State := { C0 with win.x := 0x00070007#32, win.y := 0xFFFF0000#32 };
    slice s.win.x 0 16 ≤ slice s.win.x 16 16 ∧ slice s.win.y 0 16 ≤ slice s.win.y 16 16 := by decide

theorem witness_WindowStepPushesTheNextUnit :
    let s := turn .window { pendingOne with eng.txqCw := [1#32, 2#32, 3#32] };
    s.faults = [] ∧ s.refused = none ∧ s.nextTurn = .window ∧ s.win.pending = 0x102#9 :: [] ∧
      s.eng.txqCw.length < s.params.qDepth := by decide

theorem witness_CommandUnitsReachTheBusInOrder :
    let s := turn (.engine .cw) { pendingOne with eng.enable := 1#4, eng.txqCw := [1#32] };
    s.nextTurn ≠ .host ∧ s.eng.enable = 1#4 ∧ ¬(s.dma.busy = true ∧ s.dma.qsel = .tx .cw) ∧ ∃ t, step s = .next t :=
  ⟨by decide, by decide, by decide, _, rfl⟩

theorem witness_PendingWindowIsSentInOrder :
    let s : State := { pendingOne with eng.enable := 1#4, world.sched := [.window, .engine .cw] };
    s.faults = [] ∧ s.refused = none ∧ s.eng.enable = 1#4 ∧ 1 ≤ s.params.qDepth ∧ s.eng.txqCw = [] ∧
      s.win.pending = [0x102#9] ∧
      s.world.sched = (List.replicate [0x102#9].length [Turn.window, Turn.engine .cw]).flatten ++ [] := by decide

/-! ### Transfers and the host -/

theorem witness_FillRepeatsItsPixel :
    let s : State :=
      { busyDma .b4 false (.tx .dwt) 2#32 0x20000000 0x20000004 with
        eng.enable := 4#4, world.sched := [.dmaUnit, .engine .dwt, .dmaUnit, .engine .dwt] };
    s.faults = [] ∧ s.refused = none ∧ s.eng.enable = 4#4 ∧ 1 ≤ s.params.qDepth ∧ s.eng.txqDwt = [] ∧ s.dma.busy = true ∧
      s.dma.abortPending = false ∧ s.dma.qsel = .tx .dwt ∧ s.dma.size = .b4 ∧ s.dma.incr = false ∧ s.dma.count.toNat = 2 ∧
      s.world.sched = (List.replicate 2 [Turn.dmaUnit, Turn.engine .dwt]).flatten ++ [] := by decide

/-- No byte, and as many bytes as RXQ holds. -/
theorem witness_ReadTransactionTrace :
    ∀ bs ∈ [([] : List Byte), [1#8, 2#8, 3#8, 4#8]],
      let n : Word := BitVec.ofNat 32 bs.length;
      let s : State :=
        { enabled 8#4 with
          eng.txqCdr := [n, 0x2E#32], world.device := bs, world.sched := List.replicate (bs.length + 3) (Turn.engine .cdr) };
      s.faults = [] ∧ s.refused = none ∧ s.eng.enable = 8#4 ∧ s.eng.phase = .count ∧ s.eng.txqCdr = [n, 0x2E#32] ∧
        s.eng.rxq = [] ∧ (slice n 0 16).toNat = bs.length ∧ bs.length ≤ s.params.qDepth ∧ s.world.device = bs ++ [] ∧
        s.world.sched = List.replicate (bs.length + 3) (Turn.engine .cdr) ++ [] := by decide

theorem witness_HostMemoryOperations :
    (¬∀ i < sizeBytes .b2, memValid C0.params ((0x2003FFFF + i) % 2 ^ 32) = true) ∧
    (∀ i < sizeBytes .b4, memValid C0.params ((0x2003FFFC + i) % 2 ^ 32) = true) ∧
    (let s := busyDma .b1 true .rx 1#32 0x20000003 0x20000004;
      s.dma.busy = true ∧ s.dma.qsel = .rx ∧
        ∃ i < sizeBytes .b4, s.dma.lo ≤ (0x20000000 + i) % 2 ^ 32 ∧ (0x20000000 + i) % 2 ^ 32 < s.dma.hi) ∧
    let s := busyDma .b1 true .rx 1#32 0x20000003 0x20000004;
    ¬∃ i < sizeBytes .b4, s.dma.lo ≤ (0x20000004 + i) % 2 ^ 32 ∧ (0x20000004 + i) % 2 ^ 32 < s.dma.hi := by decide

/-! ### Invariants: the reset state with the host's write of one byte as its next step -/

/-- A step that changes memory. -/
def firstStore : State := turn .host { S0 with host.program := [.memw 0x20000000#32 .b1 1#32] }

theorem witness_StepKeepsMemoryCanonical : MemoryInv firstStore ∧ ∃ t, step firstStore = .next t :=
  ⟨⟨List.Pairwise.nil, fun _ h => nomatch h⟩, _, rfl⟩

theorem witness_StepKeepsTheBusInOrder :
    BusInv (turn (.engine .cdr) { enabled 8#4 with trace := [.init true (some false)], eng.txqCdr := [1#32] }) ∧
      ∃ t, step (turn (.engine .cdr) { enabled 8#4 with trace := [.init true (some false)], eng.txqCdr := [1#32] }) = .next t :=
  ⟨⟨by decide, by decide, by decide, by decide, by decide, by decide, by decide, by decide, by decide⟩, _, rfl⟩

theorem witness_StepKeepsQueuesWithinCapacity :
    QueueInv (turn (.engine .dwb) filled) ∧ ∃ t, step (turn (.engine .dwb) filled) = .next t :=
  ⟨⟨by decide, by decide, by decide, by decide, by decide, by decide⟩, _, rfl⟩

theorem witness_StepKeepsTheTransferInRange : DmaInv aborting ∧ ∃ t, step aborting = .next t :=
  ⟨aborting_dmaInv, _, rfl⟩

theorem witness_ErrorFieldsHoldTheirUnitsCodes : StatusInv firstStore ∧ ∃ t, step firstStore = .next t :=
  ⟨⟨by decide, by decide, by decide, by decide, by decide, by decide⟩, _, rfl⟩

/-- The last clauses of the statement speak of states with a fault and a refusal on record too. -/
theorem witness_RecordOfARunOnlyGrows :
    (∃ t, step firstStore = .next t) ∧
    let s : State := { C0 with faults := [.reInit], refused := some .badAccess, trace := [.init true none] }
    (∃ t, exec .wCfgCtrlInit s = .next t) ∧ (∃ t, runTurn .host s = .next t) ∧ s.refused.isSome = true :=
  ⟨⟨_, rfl⟩, ⟨_, rfl⟩, ⟨_, rfl⟩, rfl⟩

end Sys2Proof.Tests
end

section
/-! SUPPORT. The idle turns of 00_scope (R5): an agent with no enabled step leaves the state as it is, and the scheduler's
bookkeeping decides no agent's step; with them the statement IdleAgentsChangeNothing. -/

namespace Sys2Proof.Machine

/-! ## A turn without an enabled step -/

/-- Where an engine has no unit, no read strobe and no restore to do (R180), its step does nothing. -/
theorem runEngine_of_not_enabled {e : Engine} {s : State} (h : enabledTurn s (.engine e) = false) :
    runEngine e s = .next s := by
  obtain ⟨hfetch, hrestore⟩ : engineFetch s e = none ∧ ¬(e = .cdr ∧ s.restoreEnabled = true) := by
    simpa [enabledTurn] using h
  simp only [runEngine, hfetch, if_neg hrestore]

/-- R236. -/
theorem State.dmaUnit_of_not_enabled {s : State} (h : s.dmaUnitEnabled = false) : s.dmaUnit = s := by
  rcases s.dmaUnit_cases with ⟨-, hsame⟩ | ⟨henabled, -⟩
  · exact hsame
  · simp [h] at henabled

/-- R241. -/
theorem State.dmaAck_of_not_pending {s : State} (h : s.dma.abortPending = false) : s.dmaAck = s := by
  simp [State.dmaAck, h]

/-- R333: with no unit pending, or no room in TXQ[0], the sequencer does nothing. -/
theorem State.winStep_of_not_enabled {s : State} (h : enabledTurn s .window = false) : s.winStep = s := by
  rcases s.winStep_cases with ⟨-, hsame⟩ | ⟨u, rest, hpending, hroom, -⟩
  · exact hsame
  · have hfull : s.params.qDepth ≤ (s.txq .cw).length := by
      simpa [enabledTurn, State.winBusy, State.txFull, hpending] using h
    exact absurd hroom (Nat.not_lt.mpr hfull)

/-- The host with no operation left does nothing. -/
theorem runHost_of_program_nil {s : State} (h : s.host.program = []) : runHost s = .next s := by
  simp only [runHost, h]

/-- A block agent without an enabled step changes nothing in its turn. -/
theorem runTurn_of_not_enabled {t : Turn} {s : State} (ht : t ≠ .host) (h : enabledTurn s t = false) :
    runTurn t s = .next s := by
  cases t with
  | host => exact absurd rfl ht
  | engine e => exact runEngine_of_not_enabled h
  | dmaUnit => exact congrArg Host.Outcome.next (State.dmaUnit_of_not_enabled h)
  | dmaAck => exact congrArg Host.Outcome.next (State.dmaAck_of_not_pending h)
  | window => exact congrArg Host.Outcome.next (State.winStep_of_not_enabled h)

/-! ## The scheduler's bookkeeping -/

/-- Using up the scheduler's choice enables and disables no step of a block agent. -/
theorem enabledTurn_tick {t : Turn} (s : State) (ht : t ≠ .host) : enabledTurn s.tick t = enabledTurn s t := by
  cases t with
  | host => exact absurd rfl ht
  | engine e => cases e <;> rfl
  | dmaUnit => rfl
  | dmaAck => rfl
  | window => rfl

/-! ## The statement -/

/-- Settles O9: the step is the turn of the next agent after the bookkeeping, which leaves that agent without an enabled
step. -/
theorem idleAgentsChangeNothing : Obligations.IdleAgentsChangeNothing := by
  intro s hfaults hrefused
  rw [step_eq hfaults hrefused]
  constructor
  · intro hturn hdisabled
    exact runTurn_of_not_enabled hturn ((enabledTurn_tick s hturn).trans hdisabled)
  · intro hturn hprogram
    rw [hturn]
    exact runHost_of_program_nil hprogram

end Sys2Proof.Machine
end

section
/-! SUPPORT. What a meaning can do, said once: the effects on the state that the instructions have, each by the operations
of Machine/Ops with the guards under which it happens, and the inversion of `exec` onto them. -/

namespace Sys2Proof.Machine

/-! ## The effects of the instructions -/

/-- What a meaning can make of `s`, guards included (`exec_effect`). -/
inductive Effect (s : State) : State → Prop
  /-- No effect (R167), or a unit or an abort whose guard fails (R192 to R197, R240). -/
  | same : Effect s s
  | raise (f : Fault) : Effect s (s.raise f)
  | refuse (r : Refusal) : Effect s (s.refuse r)
  | hold (h : Hold) : Effect s (s.hold h)
  | hostReturn (v : Word) : Effect s (s.hostReturn v)
  /-- R151, R156, R160, R162. -/
  | configWrite (c : Cfg) (hc : c = { s.cfg with pins := c.pins, pins2 := c.pins2, wclk := c.wclk, rclk := c.rclk }) :
      Effect s (s.configWrite c)
  /-- R153. -/
  | pinConflict (hun : s.cfg.configured = false) : Effect s (s.reportCfg .pinConflict)
  /-- R153. -/
  | initialised (hun : s.cfg.configured = false) (hpins : pinConflict s.params s.cfg = false) : Effect s s.initialised
  /-- R158. -/
  | pinctl (rst bl : Bool) :
      Effect s ((({ s with pinctl := ⟨rst, bl⟩ } : State).driveRst s.pinctl.rst rst).driveBl s.pinctl.bl bl)
  /-- R181, where the CDR is left in COUNT or stays active. -/
  | setEnable (en : BitVec 4) (hen : en ≠ 0#4 → s.cfg.configured = true) (hone : ¬1 < popcount4 en)
      (hcdr : ¬(s.eng.enable = 8#4 ∧ en ≠ 8#4)) : Effect s (s.setEnable en)
  /-- R181 with R199. -/
  | terminate (en : BitVec 4) (hone : ¬1 < popcount4 en) (hcdr : s.eng.enable = 8#4 ∧ en ≠ 8#4) :
      Effect s (s.cdrTerminate.setEnable en)
  /-- R187. -/
  | clear (sel : BitVec 4) (hinactive : (selected sel).any s.active = false)
      (hfree : (selected sel).any s.feederBusy = false) : Effect s ((selected sel).foldl State.clearEngine s)
  /-- R188, R200 to R202. -/
  | hostPush (e : Engine) (w : Word) : Effect s (s.hostPush e w)
  /-- R189. -/
  | hostPop (b : Byte) (rest : List Byte) (hfree : s.rxOwned = false) (hrxq : s.eng.rxq = b :: rest) :
      Effect s (s.popRx.hostReturn (b.zeroExtend 32))
  /-- R231, R237. -/
  | descriptorWrite (d : Dma) (hd : d = { s.dma with addr := d.addr, count := d.count }) :
      Effect s (s.descriptorWrite d)
  /-- R234. -/
  | transferFields (sz : AccessSize) (incr : Bool) (q : QSel) (hidle : s.dma.busy = false) (hrx : q = .rx → sz = .b1) :
      Effect s { s with dma.size := sz, dma.incr := incr, dma.qsel := q }
  /-- R233. -/
  | submit (sz : AccessSize) (incr : Bool) (q : QSel) (hidle : s.dma.busy = false) (hrx : q = .rx → sz = .b1)
      (hconfigured : s.cfg.configured = true) (hfree : ¬(q = .tx .cw ∧ s.winBusy = true)) :
      Effect s ({ s with dma.size := sz, dma.incr := incr, dma.qsel := q } : State).dmaStart
  /-- R240. -/
  | abort (hbusy : s.dma.busy = true) (hfirst : s.dma.abortPending = false) :
      Effect s { s with dma.abortPending := true, dma.grace := true }
  /-- R272, R276 to R290. -/
  | encOperands (e : Enc) (he : e.err = s.enc.err) : Effect s { s with enc := e }
  /-- R271. -/
  | encStart (op bpp : BitVec 4) (mode : BitVec 2) (tdir : Bool) (job : EncJob) :
      Effect s ((s.encStore op bpp mode tdir).startEncoder job)
  /-- R131. -/
  | memWrite (a : Word) (n : AccessSize) (v : Word) : Effect s { s with mem := s.mem.writeLE a v (sizeBytes n) }
  /-- R131. -/
  | delay (t : Nat) : Effect s (s.emit (.delay t))
  /-- R323, R325, R327, R329. -/
  | windowWrite (w : Win) (hpending : w.pending = s.win.pending) (herr : w.err = s.win.err) :
      Effect s (s.windowWrite w)
  /-- R322. -/
  | winStart (orient : Bool) (hidle : s.winBusy = false) : Effect s ({ s with win.orient := orient } : State).winStart
  /-- R192, R193. -/
  | writeUnit (e : Engine) (dc : Bool) (d : Byte) (he : e = .cw ∨ e = .dwb) (hactive : s.active e = true) :
      Effect s ((s.popTx e).wcycle dc d)
  /-- R194. -/
  | tripleUnit (a b c : Byte) (hactive : s.active .dwt = true) :
      Effect s ((((s.popTx .dwt).wcycle true a).wcycle true b).wcycle true c)
  /-- R195. -/
  | countUnit (n : BitVec 16) (hactive : s.active .cdr = true) (hphase : s.eng.phase = .count) :
      Effect s ((s.popTx .cdr).setPhase (.cmd n))
  /-- R196. -/
  | commandUnit (n : BitVec 16) (d : Byte) (hactive : s.active .cdr = true) (hphase : s.eng.phase = .cmd n) :
      Effect s ((((s.popTx .cdr).wcycle false d).dirIn).setPhase (.read n true))
  /-- R197. -/
  | readStrobe (k : BitVec 16) (first : Bool) (d : Byte) (hphase : s.eng.phase = .read k first)
      (henabled : s.readEnabled = true) :
      Effect s ((((if first then s.emit .settle else s).rcycle d).pushRx d).setPhase (.read (k - 1#16) false))

/-- The fields of an accepted DMA_CTRL write: a transfer out of RXQ moves bytes (R127, R233). -/
theorem dmaFields_rx {size : BitVec 2} {qsel : BitVec 3} {sz : AccessSize} {q : QSel}
    (h : dmaFields size qsel = some (sz, q)) : q = .rx → sz = .b1 := by
  unfold dmaFields at h
  split at h
  · split at h
    · cases h
    next hguard =>
      cases h
      exact fun hq => Classical.byContradiction fun hsz => hguard ⟨hq, hsz⟩
  · cases h

/-! ## Where an instruction has more than one effect -/

theorem execWCfgCtrlInit_effect {s t : State} (h : execWCfgCtrlInit s = .next t) : Effect s t := by
  cases h
  split
  · exact .raise _
  next hun =>
    have hun : s.cfg.configured = false := by simpa using hun
    split
    · exact .raise _
    split
    · exact .pinConflict hun
    next hpins => exact .initialised hun (by simpa using hpins)

theorem execWEngEnable_effect {en : BitVec 4} {s t : State} (h : execWEngEnable en s = .next t) : Effect s t := by
  cases h
  split
  · exact .raise _
  next hen =>
    split
    · exact .raise _
    next hone =>
      split
      · exact .raise _
      split
      next hcdr => exact .terminate en hone hcdr
      next hcdr => exact .setEnable en (fun hne => by simpa [hne] using hen) hone hcdr

theorem execWEngClear_effect {sel : BitVec 4} {s t : State} (h : execWEngClear sel s = .next t) : Effect s t := by
  cases h
  split
  · exact .raise _
  next hactive =>
    split
    · exact .raise _
    next hfree => exact .clear sel (Bool.eq_false_iff.2 hactive) (Bool.eq_false_iff.2 hfree)

theorem execRRxqCdr_effect {s t : State} (h : execRRxqCdr s = .next t) : Effect s t := by
  cases h
  split
  · exact .raise _
  next hfree =>
    split
    · exact .hold _
    next b rest hrxq => exact .hostPop b rest (Bool.eq_false_iff.2 hfree) hrxq

theorem execWDmaCtrlSubmit_effect {size : BitVec 2} {incr : Bool} {qsel : BitVec 3} {s t : State}
    (h : execWDmaCtrlSubmit size incr qsel s = .next t) : Effect s t := by
  cases h
  split
  · exact .raise _
  next hidle =>
    split
    · exact .raise _
    next sz q hfields =>
      split
      · exact .raise _
      next hconfigured =>
        split
        · exact .raise _
        next hfree =>
          exact .submit sz incr q (Bool.eq_false_iff.2 hidle) (dmaFields_rx hfields) (by simpa using hconfigured) hfree

theorem execWDmaCtrlSet_effect {size : BitVec 2} {incr : Bool} {qsel : BitVec 3} {s t : State}
    (h : execWDmaCtrlSet size incr qsel s = .next t) : Effect s t := by
  cases h
  split
  · exact .raise _
  next hidle =>
    split
    · exact .raise _
    next sz q hfields => exact .transferFields sz incr q (Bool.eq_false_iff.2 hidle) (dmaFields_rx hfields)

theorem execWDmaAbort_effect {abort : Bool} {s t : State} (h : execWDmaAbort abort s = .next t) : Effect s t := by
  cases h
  split
  next hguard =>
    simp only [Bool.and_eq_true, Bool.not_eq_true'] at hguard
    obtain ⟨⟨-, hbusy⟩, hfirst⟩ := hguard
    exact .abort hbusy hfirst
  · exact .same

theorem execWWinCtrlStart_effect {orient : Bool} {s t : State} (h : execWWinCtrlStart orient s = .next t) :
    Effect s t := by
  cases h
  split
  · exact .raise _
  next hidle => exact .winStart orient (Bool.eq_false_iff.2 hidle)

theorem execMemw_effect {a : Word} {n : AccessSize} {v : Word} {s t : State} (h : execMemw a n v s = .next t) :
    Effect s t := by
  cases h
  split
  · exact .refuse _
  split
  · exact .raise _
  · exact .memWrite a n v

theorem execMemr_effect {a : Word} {n : AccessSize} {s t : State} (h : execMemr a n s = .next t) : Effect s t := by
  cases h
  split
  · exact .refuse _
  split
  · exact .raise _
  · exact .hostReturn _

/-! ## The units -/

theorem execQunitCw_effect {dc : Bool} {d : Byte} {s t : State} (h : execQunitCw dc d s = .next t) : Effect s t := by
  cases h
  split
  next hguard => exact .writeUnit .cw dc d (.inl rfl) (Bool.and_eq_true_iff.1 hguard).1
  · exact .same

theorem execQunitDwb_effect {d : Byte} {s t : State} (h : execQunitDwb d s = .next t) : Effect s t := by
  cases h
  split
  next hguard => exact .writeUnit .dwb true d (.inr rfl) (Bool.and_eq_true_iff.1 hguard).1
  · exact .same

theorem execQunitDwt_effect {a b c : Byte} {s t : State} (h : execQunitDwt a b c s = .next t) : Effect s t := by
  cases h
  split
  next hguard => exact .tripleUnit a b c (Bool.and_eq_true_iff.1 hguard).1
  · exact .same

theorem execQunitCdrCount_effect {n : BitVec 16} {s t : State} (h : execQunitCdrCount n s = .next t) : Effect s t := by
  cases h
  split
  next hguard =>
    split
    next hphase => exact .countUnit n (Bool.and_eq_true_iff.1 hguard).1 hphase
    · exact .same
    · exact .same
  · exact .same

theorem execQunitCdrCmd_effect {d : Byte} {s t : State} (h : execQunitCdrCmd d s = .next t) : Effect s t := by
  cases h
  split
  next hguard =>
    split
    · exact .same
    next n hphase => exact .commandUnit n d (Bool.and_eq_true_iff.1 hguard).1 hphase
    · exact .same
  · exact .same

theorem execQunitRx_effect {d : Byte} {s t : State} (h : execQunitRx d s = .next t) : Effect s t := by
  cases h
  split
  next henabled =>
    split
    · exact .same
    · exact .same
    next k first hphase => exact .readStrobe k first d hphase henabled
  · exact .same

/-! ## The inversion of `exec` -/

/-- Every meaning has one of the effects. -/
theorem exec_effect {i : Instr} {s t : State} (h : exec i s = .next t) : Effect s t := by
  cases i with
  | rCfgPins | rCfgPins2 | rCfgWclk | rCfgRclk | rCfgStatus | rTxLimit | rRxLimit | rPinctl | rEngEnable | rEngIdle
  | rTxLevel | rRxLevel | rDmaAddr | rDmaCount | rDmaCtrl | rDmaAbort | rEncSrc | rEncDst | rEncCount | rEncPal
  | rEncPalLen | rEncFg | rEncBg | rEncDim | rEncCtrl | rEncStatus | rWinX | rWinY | rWinCtrl | rWinCmd | rWinStatus =>
    cases h; exact .hostReturn _
  | wCfgPins | wCfgPins2 | wCfgWclk | wCfgRclk => cases h; exact .configWrite _ rfl
  | wCfgCtrlInit => exact execWCfgCtrlInit_effect h
  | wCfgCtrlNop => cases h; exact .same
  | wPinctl rst bl => cases h; exact .pinctl rst bl
  | wEngEnable => exact execWEngEnable_effect h
  | wEngClear => exact execWEngClear_effect h
  | wTxqCw w | wTxqDwb w | wTxqDwt w | wTxqCdr w => cases h; exact .hostPush _ w
  | rRxqCdr => exact execRRxqCdr_effect h
  | wDmaAddr | wDmaCount => cases h; exact .descriptorWrite _ rfl
  | wDmaCtrlSubmit => exact execWDmaCtrlSubmit_effect h
  | wDmaCtrlSet => exact execWDmaCtrlSet_effect h
  | wDmaAbort => exact execWDmaAbort_effect h
  | wEncSrc | wEncDst | wEncCount | wEncPal | wEncPalLen | wEncFg | wEncBg | wEncDim | wEncCtrlSet =>
    cases h; exact .encOperands _ rfl
  | wEncCtrlRgb565 | wEncCtrlIndexed | wEncCtrlGlyph | wEncCtrlBitrev | wEncCtrlTranspose | wEncCtrlReserved1
  | wEncCtrlReserved2 | wEncCtrlReserved3 =>
    cases h; exact .encStart _ _ _ _ _
  | wWinX | wWinY | wWinCtrlSet | wWinCmd => cases h; exact .windowWrite _ rfl rfl
  | wWinCtrlStart => exact execWWinCtrlStart_effect h
  | qunitCw => exact execQunitCw_effect h
  | qunitDwb => exact execQunitDwb_effect h
  | qunitDwt => exact execQunitDwt_effect h
  | qunitCdrCount => exact execQunitCdrCount_effect h
  | qunitCdrCmd => exact execQunitCdrCmd_effect h
  | qunitRx => exact execQunitRx_effect h
  | memw => exact execMemw_effect h
  | memr => exact execMemr_effect h
  | delay t => cases h; exact .delay t

end Sys2Proof.Machine
end

section
/-! SUPPORT. The capacities of the queues (10_state R44, R62) as an invariant of the shared operations; with them the
statement StepKeepsQueuesWithinCapacity. -/

namespace Sys2Proof.Machine

/-! ## The operations on the queues -/

/-- The capacities, engine by engine. -/
theorem QueueInv.txq {s : State} (h : QueueInv s) (e : Engine) : (s.txq e).length ≤ s.params.qDepth := by
  cases e with
  | cw => exact h.cw
  | dwb => exact h.dwb
  | dwt => exact h.dwt
  | cdr => exact h.cdr

/-- What leaves the parameters, the engines and the pending units alone keeps the capacities. -/
theorem QueueInv.of_frame {s t : State} (h : QueueInv s) (hparams : t.params = s.params := by simp)
    (heng : t.eng = s.eng := by simp) (hpending : t.win.pending = s.win.pending := by simp) : QueueInv t := by
  obtain ⟨hcw, hdwb, hdwt, hcdr, hrx, hp⟩ := h
  rw [← hparams] at hcw hdwb hdwt hcdr hrx
  rw [← heng] at hcw hdwb hdwt hcdr hrx
  exact ⟨hcw, hdwb, hdwt, hcdr, hrx, hpending ▸ hp⟩

theorem QueueInv.setTxq {s : State} {e : Engine} {q : List Word} (h : QueueInv s) (hq : q.length ≤ s.params.qDepth) :
    QueueInv (s.setTxq e q) := by
  cases e with
  | cw => exact { h with cw := hq }
  | dwb => exact { h with dwb := hq }
  | dwt => exact { h with dwt := hq }
  | cdr => exact { h with cdr := hq }

theorem QueueInv.pushTx {s : State} {e : Engine} {w : Word} (h : QueueInv s)
    (hroom : (s.txq e).length < s.params.qDepth) : QueueInv (s.pushTx e w) :=
  h.setTxq (by simpa using hroom)

theorem QueueInv.popTx {s : State} {e : Engine} (h : QueueInv s) : QueueInv (s.popTx e) :=
  h.setTxq ((List.tail_sublist _).length_le.trans (h.txq e))

theorem QueueInv.pushRx {s : State} {b : Byte} (h : QueueInv s) (hroom : s.eng.rxq.length < s.params.qDepth) :
    QueueInv (s.pushRx b) :=
  { h with rx := by simpa using hroom }

theorem QueueInv.popRx {s : State} (h : QueueInv s) : QueueInv s.popRx :=
  { h with rx := (List.tail_sublist _).length_le.trans h.rx }

theorem QueueInv.setPhase {s : State} {p : CdrPhase} (h : QueueInv s) : QueueInv (s.setPhase p) := { h with }

theorem QueueInv.setEnable {s : State} {en : BitVec 4} (h : QueueInv s) : QueueInv (s.setEnable en) := { h with }

theorem QueueInv.wcycle {s : State} {dc : Bool} {d : Byte} (h : QueueInv s) : QueueInv (s.wcycle dc d) := h.of_frame

theorem QueueInv.dirIn {s : State} (h : QueueInv s) : QueueInv s.dirIn := h.of_frame

theorem QueueInv.clearEngine {s : State} {e : Engine} (h : QueueInv s) : QueueInv (s.clearEngine e) := by
  cases e with
  | cw => exact { h with cw := Nat.zero_le _ }
  | dwb => exact { h with dwb := Nat.zero_le _ }
  | dwt => exact { h with dwt := Nat.zero_le _ }
  | cdr => exact { h with cdr := Nat.zero_le _, rx := Nat.zero_le _ }

theorem QueueInv.foldl_clearEngine {s : State} (h : QueueInv s) (es : List Engine) :
    QueueInv (es.foldl State.clearEngine s) := by
  induction es generalizing s with
  | nil => exact h
  | cons e es ih => exact ih h.clearEngine

theorem QueueInv.hostPush {s : State} {e : Engine} {w : Word} (h : QueueInv s) : QueueInv (s.hostPush e w) := by
  rcases s.hostPush_cases e w with ⟨-, hraise⟩ | ⟨-, -, hhold⟩ | ⟨-, hroom, hpush⟩
  · rw [hraise]; exact h.of_frame
  · rw [hhold]; exact h.of_frame
  · rw [hpush]; exact h.pushTx hroom

theorem QueueInv.cdrTerminate {s : State} (h : QueueInv s) : QueueInv s.cdrTerminate := by
  rcases s.cdrTerminate_cases with ⟨-, hsame⟩ | ⟨n, -, hcount⟩ | ⟨k, first, -, hout⟩
  · rw [hsame]; exact h
  · rw [hcount]; exact { h with }
  · rw [hout]; exact { h with }

/-! ## The window units -/

theorem winUnits_length (w : Win) : (winUnits w).length = 11 := rfl

theorem QueueInv.windowWrite {s : State} {w : Win} (h : QueueInv s) (hpending : w.pending = s.win.pending) :
    QueueInv (s.windowWrite w) := by
  rcases s.windowWrite_cases w with ⟨-, hraise⟩ | ⟨-, hwrite⟩
  · rw [hraise]; exact h.of_frame
  · rw [hwrite]; exact h.of_frame (hpending := hpending)

/-- A START makes 11 units pending, or none more. -/
theorem QueueInv.winStart {s : State} (h : QueueInv s) : QueueInv s.winStart := by
  rcases s.winStart_cases with ⟨-, hraise⟩ | ⟨-, -, hinvalid⟩ | ⟨-, -, hstart⟩
  · rw [hraise]; exact h.of_frame
  · rw [hinvalid]; exact h.of_frame
  · rw [hstart]; exact { h with pending := (winUnits_length s.win).le }

/-- The sequencer moves a unit only where TXQ[0] has room (R333). -/
theorem QueueInv.winStep {s : State} (h : QueueInv s) : QueueInv s.winStep := by
  rcases s.winStep_cases with ⟨-, hsame⟩ | ⟨u, rest, hpending, hroom, hmove⟩
  · rw [hsame]; exact h
  · have hrest : rest.length ≤ 11 := (List.sublist_cons_self u rest).length_le.trans (hpending ▸ h.pending)
    rw [hmove]
    exact { h with cw := by simpa using hroom, pending := hrest }

/-! ## The DMA's steps -/

/-- An enabled unit step finds room in its queue, or a byte to take (R236). -/
theorem QueueInv.dmaMove {s : State} (h : QueueInv s) (htrigger : s.dmaTrigger = true) : QueueInv s.dmaMove := by
  unfold State.dmaMove
  split
  next e hqsel => exact h.pushTx (by simpa [State.dmaTrigger, hqsel] using htrigger)
  · split
    · exact h
    · exact (h.of_frame (t := { s with mem := _ })).popRx

theorem QueueInv.dmaUnit {s : State} (h : QueueInv s) : QueueInv s.dmaUnit := by
  rcases s.dmaUnit_cases with ⟨-, hsame⟩ | ⟨henabled, hunit⟩
  · rw [hsame]; exact h
  · have hmove : QueueInv s.dmaMove := h.dmaMove (Bool.and_eq_true_iff.1 henabled).2
    rw [hunit]
    split
    · exact hmove.of_frame
    · exact hmove.of_frame

/-! ## Every meaning, and every step -/

/-- The CDR strobes only where RXQ has room (R197). -/
theorem State.readEnabled_room {s : State} (h : s.readEnabled = true) : s.eng.rxq.length < s.params.qDepth := by
  obtain ⟨⟨-, hroom⟩, -⟩ : (s.active .cdr = true ∧ s.eng.rxq.length < s.params.qDepth) ∧ _ := by
    simpa only [State.readEnabled, Bool.and_eq_true, decide_eq_true_eq] using h
  exact hroom

theorem QueueInv.effect {s t : State} (h : QueueInv s) (he : Effect s t) : QueueInv t := by
  cases he with
  | same => exact h
  | raise | refuse | hold | hostReturn | pinConflict | initialised | pinctl | transferFields | submit | abort
  | encOperands | encStart | memWrite | delay | configWrite | descriptorWrite => exact h.of_frame
  | setEnable => exact h.setEnable
  | terminate => exact h.cdrTerminate.setEnable
  | clear => exact h.foldl_clearEngine _
  | hostPush => exact h.hostPush
  | hostPop => exact h.popRx.of_frame
  | windowWrite w hpending => exact h.windowWrite hpending
  | winStart orient => exact (h.of_frame (t := { s with win.orient := orient })).winStart
  | writeUnit => exact h.popTx.wcycle
  | tripleUnit => exact h.popTx.wcycle.wcycle.wcycle
  | countUnit => exact h.popTx.setPhase
  | commandUnit => exact h.popTx.wcycle.dirIn.setPhase
  | readStrobe k first d hphase henabled =>
    have hroom := s.readEnabled_room henabled
    cases first with
    | false => exact ((h.of_frame (t := s.rcycle d)).pushRx hroom).setPhase
    | true => exact ((h.of_frame (t := (s.emit .settle).rcycle d)).pushRx hroom).setPhase

/-- Settles O53: every meaning and every step without an instruction pushes only where there is room. -/
theorem stepKeepsQueuesWithinCapacity : Obligations.StepKeepsQueuesWithinCapacity := by
  intro s t hs hstep
  exact step_keeps QueueInv
    (tick := fun _ h => h.of_frame)
    (unhold := fun _ h => h.of_frame)
    (advance := fun _ h => h.of_frame)
    (refuse := fun _ _ h => h.of_frame)
    (drawn := fun _ h => h.of_frame)
    (meaning := fun _ _ _ hexec h => h.effect (exec_effect hexec))
    (restore := fun _ _ h => { h with })
    (unit := fun _ h => h.dmaUnit)
    (ack := fun _ h => h.of_frame)
    (window := fun _ h => h.winStep)
    hstep hs

end Sys2Proof.Machine
end

section
/-! SUPPORT. The order on states of 10_state R37, R63, R66 to R68 and 00_scope R10: nothing on record is lost and nothing
locked is written; with it the statement RecordOfARunOnlyGrows. -/

namespace Sys2Proof.Machine

/-! ## The order -/

/-- `t` may come after `s`, whether or not a fault or a refusal is on record in `s`.  It differs from `Later` in two clauses:
once configured the whole of `cfg` stays, and a refusal may be replaced by another. -/
structure Extends (s t : State) : Prop where
  params : t.params = s.params
  locked : s.cfg.configured = true → t.cfg = s.cfg
  driven : s.pins.driven = true → t.pins.driven = true
  faults : s.faults <+: t.faults
  refused : s.refused.isSome = true → t.refused.isSome = true
  trace : s.trace <+: t.trace

theorem Extends.refl (s : State) : Extends s s :=
  ⟨rfl, fun _ => rfl, id, List.prefix_rfl, id, List.prefix_rfl⟩

theorem Extends.trans {s t u : State} (h : Extends s t) (h' : Extends t u) : Extends s u where
  params := h'.params.trans h.params
  locked hs := (h'.locked ((h.locked hs).symm ▸ hs)).trans (h.locked hs)
  driven hs := h'.driven (h.driven hs)
  faults := h.faults.trans h'.faults
  refused hs := h'.refused (h.refused hs)
  trace := h.trace.trans h'.trace

/-- An unrefused state is followed by a later one in the sense of the statements. -/
theorem Extends.later {s t : State} (h : Extends s t) (hrefused : s.refused = none) : Later s t where
  params := h.params
  locked hs := by rw [h.locked hs]; exact ⟨hs, rfl, rfl, rfl, rfl, rfl, rfl⟩
  driven := h.driven
  faults := h.faults
  refused hs := absurd hrefused hs
  trace := h.trace

/-- What leaves the parameters, the configuration, `driven` and `F` alone and lets the trace grow. -/
theorem Extends.of_frame {s t : State} (hparams : t.params = s.params := by simp) (hcfg : t.cfg = s.cfg := by simp)
    (hdriven : t.pins.driven = s.pins.driven := by simp) (hfaults : t.faults = s.faults := by simp)
    (hrefused : t.refused = s.refused := by simp) (htrace : s.trace <+: t.trace := by simp) : Extends s t where
  params := hparams
  locked _ := hcfg
  driven hs := hdriven.trans hs
  faults := hfaults ▸ List.prefix_rfl
  refused hs := hrefused ▸ hs
  trace := htrace

/-! ## The shared operations -/

theorem Extends.raise (s : State) (f : Fault) : Extends s (s.raise f) := by
  rcases s.raise_cases f with ⟨-, hsame⟩ | ⟨-, hnew⟩
  · rw [hsame]; exact .refl s
  · rw [hnew]; exact { Extends.refl s with faults := List.prefix_append _ _ }

theorem Extends.refuse (s : State) (r : Refusal) : Extends s (s.refuse r) :=
  { Extends.refl s with refused := fun _ => rfl }

/-- Before INIT the configuration is free. -/
theorem Extends.of_unconfigured {s : State} (c : Cfg) (hun : s.cfg.configured = false) :
    Extends s { s with cfg := c } :=
  { Extends.refl s with locked := fun hs => by simp [hun] at hs }

theorem Extends.initialised {s : State} (hun : s.cfg.configured = false) : Extends s s.initialised where
  params := rfl
  locked hs := by simp [hun] at hs
  driven _ := rfl
  faults := List.prefix_rfl
  refused := id
  trace := List.prefix_append _ _

theorem Extends.configWrite (s : State) (c : Cfg) : Extends s (s.configWrite c) := by
  rcases s.configWrite_cases c with ⟨-, hraise⟩ | ⟨hun, hwrite⟩
  · rw [hraise]; exact .raise s _
  · rw [hwrite]; exact .of_unconfigured c hun

theorem Extends.driveRst (s : State) (old new : Bool) : Extends s (s.driveRst old new) := by
  rcases s.driveRst_cases old new with ⟨-, -, hdrive⟩ | ⟨-, hsame⟩
  · rw [hdrive]; exact .of_frame
  · rw [hsame]; exact .refl s

theorem Extends.driveBl (s : State) (old new : Bool) : Extends s (s.driveBl old new) := by
  rcases s.driveBl_cases old new with ⟨-, -, -, hdrive⟩ | ⟨-, hsame⟩
  · rw [hdrive]; exact .of_frame
  · rw [hsame]; exact .refl s

theorem Extends.cdrTerminate (s : State) : Extends s s.cdrTerminate := by
  rcases s.cdrTerminate_cases with ⟨-, hsame⟩ | ⟨n, -, hcount⟩ | ⟨k, first, -, hout⟩
  · rw [hsame]; exact .refl s
  · rw [hcount]; exact .of_frame
  · rw [hout]; exact .of_frame

theorem Extends.clear (s : State) (sel : BitVec 4) : Extends s ((selected sel).foldl State.clearEngine s) := by
  rw [s.clear_eq sel]; exact .of_frame

theorem Extends.hostPush (s : State) (e : Engine) (w : Word) : Extends s (s.hostPush e w) := by
  rcases s.hostPush_cases e w with ⟨-, hraise⟩ | ⟨-, -, hhold⟩ | ⟨-, -, hpush⟩
  · rw [hraise]; exact .raise s _
  · rw [hhold]; exact .of_frame
  · rw [hpush]; exact .of_frame

theorem Extends.descriptorWrite (s : State) (d : Dma) : Extends s (s.descriptorWrite d) := by
  rcases s.descriptorWrite_cases d with ⟨-, hraise⟩ | ⟨-, hwrite⟩
  · rw [hraise]; exact .raise s _
  · rw [hwrite]; exact .of_frame

theorem Extends.startEncoder (s : State) (job : EncJob) : Extends s (s.startEncoder job) := by
  rcases s.startEncoder_cases job with ⟨-, hformat⟩ | ⟨-, -, hrange⟩ | ⟨-, -, -, hrace⟩ | ⟨-, -, -, -, hpalette⟩ |
    ⟨-, -, -, -, hok⟩
  · rw [hformat]; exact .of_frame
  · rw [hrange]; exact .of_frame
  · rw [hrace]; exact .raise s _
  · rw [hpalette]; exact .of_frame
  · rw [hok]; exact .of_frame

theorem Extends.windowWrite (s : State) (w : Win) : Extends s (s.windowWrite w) := by
  rcases s.windowWrite_cases w with ⟨-, hraise⟩ | ⟨-, hwrite⟩
  · rw [hraise]; exact .raise s _
  · rw [hwrite]; exact .of_frame

theorem Extends.winStart (s : State) : Extends s s.winStart := by
  rcases s.winStart_cases with ⟨-, hraise⟩ | ⟨-, -, hinvalid⟩ | ⟨-, -, hstart⟩
  · rw [hraise]; exact .raise s _
  · rw [hinvalid]; exact .of_frame
  · rw [hstart]; exact .of_frame

/-! ## Every meaning, turn and step -/

theorem effect_extends {s t : State} (he : Effect s t) : Extends s t := by
  cases he with
  | same => exact .refl s
  | raise f => exact .raise s f
  | refuse r => exact .refuse s r
  | configWrite c => exact .configWrite s c
  | pinConflict hun => exact .of_unconfigured _ hun
  | initialised hun => exact .initialised hun
  | pinctl rst bl =>
    exact (Extends.of_frame (t := { s with pinctl := ⟨rst, bl⟩ })).trans ((Extends.driveRst _ _ _).trans (.driveBl _ _ _))
  | terminate => exact (Extends.cdrTerminate s).trans .of_frame
  | clear sel => exact .clear s sel
  | hostPush e w => exact .hostPush s e w
  | descriptorWrite d => exact .descriptorWrite s d
  | encStart op bpp mode tdir job =>
    exact (Extends.of_frame (t := s.encStore op bpp mode tdir)).trans (.startEncoder _ job)
  | windowWrite w => exact .windowWrite s w
  | winStart orient => exact (Extends.of_frame (t := { s with win.orient := orient })).trans (.winStart _)
  | hold | hostReturn | setEnable | hostPop | transferFields | submit | abort | encOperands | memWrite | delay | writeUnit
  | tripleUnit | countUnit | commandUnit =>
    exact .of_frame
  | readStrobe k first d => cases first <;> exact .of_frame

theorem exec_extends {i : Instr} {s t : State} (h : exec i s = .next t) : Extends s t := effect_extends (exec_effect h)

theorem Extends.hostDone (s : State) : Extends s s.hostDone := by
  unfold State.hostDone
  split
  · exact .refl s
  · exact .of_frame

theorem runHost_extends {s t : State} (h : runHost s = .next t) : Extends s t := by
  rcases runHost_cases h with ⟨-, rfl⟩ | ⟨op, rest, -, ⟨e, -, rfl⟩ | ⟨i, u, -, hexec, rfl⟩⟩
  · exact .refl t
  · exact .refuse s _
  · exact (Extends.of_frame (t := s.unhold)).trans ((exec_extends hexec).trans (.hostDone u))

theorem runEngine_extends {e : Engine} {s t : State} (h : runEngine e s = .next t) : Extends s t := by
  rcases runEngine_cases h with ⟨k, w, -, hexec⟩ | ⟨-, hexec⟩ | ⟨-, -, -, rfl⟩ | ⟨-, -, rfl⟩
  · exact exec_extends hexec
  · exact (Extends.of_frame (t := s.drawn)).trans (exec_extends hexec)
  · exact .of_frame (t := s.dirOut.setPhase .count)
  · exact .refl t

theorem runTurn_extends {u : Turn} {s t : State} (h : runTurn u s = .next t) : Extends s t := by
  cases u with
  | host => exact runHost_extends h
  | engine e => exact runEngine_extends h
  | dmaUnit | dmaAck | window => cases h; exact .of_frame

/-- Settles O56: the record extends across every meaning and every turn, and a step is a turn of an unrefused state. -/
theorem recordOfARunOnlyGrows : Obligations.RecordOfARunOnlyGrows := by
  refine ⟨fun p => ⟨rfl, rfl⟩, fun s t hstep => ?step, fun i s t hexec => ?meaning, fun u s t hturn => ?turn⟩
  case step =>
    obtain ⟨-, hrefused, hturn⟩ := step_cases hstep
    have htick : Extends s s.tick := .of_frame
    exact (htick.trans (runTurn_extends hturn)).later hrefused
  case meaning =>
    have hext := exec_extends hexec
    exact ⟨hext.faults, hext.refused, hext.trace⟩
  case turn =>
    have hext := runTurn_extends hturn
    exact ⟨hext.faults, hext.refused, hext.trace⟩

end Sys2Proof.Machine
end

section
/-! SUPPORT. The canonical form of system memory (20_memory R80, R82) as an invariant of the operations that write memory:
the encoder's transform, the host's store and the DMA's unit step; with it the statement StepKeepsMemoryCanonical. -/

namespace Sys2Proof.Machine

theorem MemoryInv.of_frame {s t : State} (h : MemoryInv s) (hmem : t.mem = s.mem := by simp) : MemoryInv t := by
  unfold MemoryInv at h ⊢
  rwa [hmem]

/-! ## The operations that write memory -/

/-- A range that R83 admits and that is not empty ends by 2^32, so the transform writes below it (R271). -/
theorem MemoryInv.startEncoder {s : State} (h : MemoryInv s) (job : EncJob) : MemoryInv (s.startEncoder job) := by
  rcases s.startEncoder_cases job with ⟨-, hformat⟩ | ⟨-, -, hrange⟩ | ⟨-, -, -, hrace⟩ | ⟨-, -, -, -, hpalette⟩ |
    ⟨-, hranges, -, -, hok⟩
  · rw [hformat]; exact h.of_frame
  · rw [hrange]; exact h.of_frame
  · rw [hrace]; exact h.of_frame
  · rw [hpalette]; exact h.of_frame
  · have hdst : InMemory s.params job.dst := (s.encRangesOk_iff _ _).1 hranges _ (List.mem_cons_self ..)
    rw [hok]
    exact Memory.wf_fill h _ _ _ (hdst.imp id And.left)

/-- A unit out of RXQ is a byte at DMA_ADDR, which has 32 bits (R236). -/
theorem MemoryInv.dmaMove {s : State} (h : MemoryInv s) : MemoryInv s.dmaMove := by
  unfold State.dmaMove
  split
  · exact h.of_frame
  · split
    · exact h
    · exact Memory.wf_write h s.dma.addr.isLt _

theorem MemoryInv.dmaUnit {s : State} (h : MemoryInv s) : MemoryInv s.dmaUnit := by
  rcases s.dmaUnit_cases with ⟨-, hsame⟩ | ⟨-, hunit⟩
  · rw [hsame]; exact h
  · rw [hunit]
    split
    · exact h.dmaMove.of_frame
    · exact h.dmaMove.of_frame

/-! ## Every meaning, and every step -/

theorem MemoryInv.effect {s t : State} (h : MemoryInv s) (he : Effect s t) : MemoryInv t := by
  cases he with
  | same => exact h
  | raise | refuse | hold | hostReturn | configWrite | pinConflict | initialised | pinctl | setEnable | terminate
  | hostPush | hostPop | descriptorWrite | transferFields | submit | abort | encOperands | delay | windowWrite | winStart
  | writeUnit | tripleUnit | countUnit | commandUnit =>
    exact h.of_frame
  | clear sel => rw [s.clear_eq sel]; exact h.of_frame
  | encStart op bpp mode tdir job => exact (h.of_frame (t := s.encStore op bpp mode tdir)).startEncoder job
  | memWrite a n v => exact Memory.wf_writeLE h a v (sizeBytes n)
  | readStrobe k first => cases first <;> exact h.of_frame

/-- Settles O51: memory is written by the encoder, the host's store and the DMA only, each below 2^32. -/
theorem stepKeepsMemoryCanonical : Obligations.StepKeepsMemoryCanonical := by
  intro s t hs hstep
  exact step_keeps MemoryInv
    (tick := fun _ h => h.of_frame)
    (unhold := fun _ h => h.of_frame)
    (advance := fun _ h => h.of_frame)
    (refuse := fun _ _ h => h.of_frame)
    (drawn := fun _ h => h.of_frame)
    (meaning := fun _ _ _ hexec h => h.effect (exec_effect hexec))
    (restore := fun _ _ h => h.of_frame)
    (unit := fun _ h => h.dmaUnit)
    (ack := fun _ h => h.of_frame)
    (window := fun _ h => h.of_frame)
    hstep hs

end Sys2Proof.Machine
end

section
/-! SUPPORT. The agreement of the engines, the pins and the trace (10_state R41, R64, R65, 20_memory R97, 42_engines R182,
R206) as an invariant of the shared operations; with it the statement StepKeepsTheBusInOrder. -/

namespace Sys2Proof.Machine

/-! ## The bus after one more event (R97) -/

theorem busMode_append (tr : List BusEvent) (ev : BusEvent) :
    busMode (tr ++ [ev]) = (busMode tr).bind fun m => busStep m ev := by
  simp [busMode]

/-- The reset and backlight lines may change wherever the pins are driven, but not between `Settle` and the first `Rd`. -/
theorem busStep_lines {m : BusMode} (hundriven : m ≠ .undriven) (hsettled : m ≠ .settled) (l : Bool) :
    busStep m (.rst l) = some m ∧ busStep m (.bl l) = some m := by
  cases m with
  | undriven => exact absurd rfl hundriven
  | settled => exact absurd rfl hsettled
  | out | turned | reading => exact ⟨rfl, rfl⟩

theorem busStep_delay {m : BusMode} (hsettled : m ≠ .settled) (t : Nat) : busStep m (.delay t) = some m := by
  cases m with
  | settled => exact absurd rfl hsettled
  | undriven | out | turned | reading => rfl

/-! ## Where the engines' state says the bus is -/

theorem phaseMode_of_not_read {s : State} (h : s.eng.phase.isRead = false) :
    phaseMode s = if s.pins.driven then .out else .undriven := by
  unfold phaseMode
  cases hphase : s.eng.phase with
  | count | cmd => rfl
  | read => simp [hphase, CdrPhase.isRead] at h

theorem phaseMode_of_read {s : State} {k : BitVec 16} {first : Bool} (hdriven : s.pins.driven = true)
    (hphase : s.eng.phase = .read k first) : phaseMode s = if first then .turned else .reading := by
  simp [phaseMode, hdriven, hphase]

theorem phaseMode_ne_undriven {s : State} (hdriven : s.pins.driven = true) : phaseMode s ≠ .undriven := by
  cases hphase : s.eng.phase with
  | count | cmd => simp [phaseMode, hdriven, hphase]
  | read k first => cases first <;> simp [phaseMode, hdriven, hphase]

/-- `Settle` and the `Rd` after it are one step (R197), so no step ends between them. -/
theorem phaseMode_ne_settled (s : State) : phaseMode s ≠ .settled := by
  by_cases hdriven : s.pins.driven = true
  · cases hphase : s.eng.phase with
    | count | cmd => simp [phaseMode, hdriven, hphase]
    | read k first => cases first <;> simp [phaseMode, hdriven, hphase]
  · simp [phaseMode, hdriven]

/-! ## What the invariant says of an active engine -/

/-- Among the enable sets of at most one engine, the one with the bit of `e` (R41). -/
theorem eq_engineBit {en : BitVec 4} (hone : en = 0#4 ∨ en = 1#4 ∨ en = 2#4 ∨ en = 4#4 ∨ en = 8#4) (e : Engine)
    (he : bitAt en (engineIndex e) = true) : en = engineBit e := by
  revert en
  cases e <;> decide

theorem BusInv.enable_of_active {s : State} {e : Engine} (h : BusInv s) (hactive : s.active e = true) :
    s.eng.enable = engineBit e :=
  eq_engineBit h.oneActive e hactive

theorem BusInv.driven_of_enable {s : State} (h : BusInv s) (hen : s.eng.enable ≠ 0#4) : s.pins.driven = true :=
  h.driven.trans (h.configuredFirst hen)

theorem BusInv.driven_of_active {s : State} {e : Engine} (h : BusInv s) (hactive : s.active e = true) :
    s.pins.driven = true := by
  refine h.driven_of_enable ?_
  rw [h.enable_of_active hactive]
  cases e <;> decide

theorem BusInv.driven_of_phase {s : State} (h : BusInv s) (hphase : s.eng.phase ≠ .count) : s.pins.driven = true :=
  h.driven_of_enable (by rw [h.cdrActive hphase]; decide)

/-- While another engine than the CDR is active, the lane is output (R182). -/
theorem BusInv.phaseMode_of_active {s : State} {e : Engine} (h : BusInv s) (hactive : s.active e = true)
    (he : e ≠ .cdr) : phaseMode s = .out := by
  have hphase : s.eng.phase = .count := by
    by_contra hne
    have hcdr : engineBit e = 8#4 := (h.enable_of_active hactive).symm.trans (h.cdrActive hne)
    revert hcdr he
    cases e <;> decide
  rw [phaseMode_of_not_read (by rw [hphase]; rfl), if_pos (h.driven_of_active hactive)]

/-- Before INIT the CDR's phase is COUNT and the pins are not driven. -/
theorem BusInv.of_unconfigured {s : State} (h : BusInv s) (hun : s.cfg.configured = false) :
    s.pins.driven = false ∧ s.eng.phase = .count := by
  have hdriven : s.pins.driven = false := h.driven.trans hun
  refine ⟨hdriven, ?_⟩
  by_contra hphase
  simp [h.driven_of_phase hphase] at hdriven

/-- An event in order, in terms of the trace. -/
theorem BusInv.busMode_emit {s : State} {ev : BusEvent} {m : BusMode} (h : BusInv s)
    (hstep : busStep (phaseMode s) ev = some m) : busMode (s.trace ++ [ev]) = some m := by
  rw [busMode_append, h.trace]
  exact hstep

/-! ## What leaves the invariant alone -/

theorem BusInv.of_frame {s t : State} (h : BusInv s) (henable : t.eng.enable = s.eng.enable := by simp)
    (hphase : t.eng.phase = s.eng.phase := by simp) (hcfg : t.cfg = s.cfg := by simp)
    (hpinctl : t.pinctl = s.pinctl := by simp) (hpins : t.pins = s.pins := by simp)
    (htrace : t.trace = s.trace := by simp) : BusInv t := by
  have hmode : phaseMode t = phaseMode s := by simp only [phaseMode, hpins, hphase]
  obtain ⟨hone, hconfigured, hcdr, hlane, hstrobes, hdriven, hrst, hbl, hbus⟩ := h
  rw [← henable] at hone hconfigured hcdr
  rw [← hphase] at hcdr hlane
  rw [← hcfg] at hconfigured hdriven hbl
  rw [← hpinctl] at hrst hbl
  rw [← hpins] at hlane hstrobes hdriven hrst hbl
  exact ⟨hone, hconfigured, hcdr, hlane, hstrobes, hdriven, hrst, hbl, by rw [htrace, hmode]; exact hbus⟩

theorem BusInv.hostPush {s : State} (h : BusInv s) (e : Engine) (w : Word) : BusInv (s.hostPush e w) := by
  rcases s.hostPush_cases e w with ⟨-, hraise⟩ | ⟨-, -, hhold⟩ | ⟨-, -, hpush⟩
  · rw [hraise]; exact h.of_frame
  · rw [hhold]; exact h.of_frame
  · rw [hpush]; exact h.of_frame

/-! ## Configuration (R151 to R167) -/

/-- Before INIT no line of the invariant depends on the pin and clock registers. -/
theorem BusInv.setCfg {s : State} (h : BusInv s) (hun : s.cfg.configured = false) (c : Cfg)
    (hc : c.configured = false) : BusInv { s with cfg := c } :=
  { h with
    configuredFirst := fun hen => by simp [h.configuredFirst hen] at hun
    driven := (h.of_unconfigured hun).1.trans hc.symm
    blLine := fun hdriven => by simp [(h.of_unconfigured hun).1] at hdriven }

theorem BusInv.configWrite {s : State} (h : BusInv s) {c : Cfg} (hc : c.configured = s.cfg.configured) :
    BusInv (s.configWrite c) := by
  rcases s.configWrite_cases c with ⟨-, hraise⟩ | ⟨hun, hwrite⟩
  · rw [hraise]; exact h.of_frame
  · rw [hwrite]; exact h.setCfg hun c (hc.trans hun)

/-- INIT drives every pin to the level the invariant asks for, and the trace starts (R153). -/
theorem BusInv.initialised {s : State} (h : BusInv s) (hun : s.cfg.configured = false) : BusInv s.initialised := by
  obtain ⟨hdriven, hphase⟩ := h.of_unconfigured hun
  have hread : s.eng.phase.isRead = false := by rw [hphase]; rfl
  have hbefore : phaseMode s = .undriven := by rw [phaseMode_of_not_read hread, if_neg (by simp [hdriven])]
  have hafter : phaseMode s.initialised = .out := phaseMode_of_not_read (s := s.initialised) hread
  exact
    { oneActive := h.oneActive
      configuredFirst := fun _ => rfl
      cdrActive := h.cdrActive
      lane := by simp [State.initialised, State.emit, hread]
      strobes := ⟨rfl, rfl⟩
      driven := rfl
      rstLine := fun _ => rfl
      blLine := fun _ hbl => if_pos hbl
      trace := by rw [hafter]; exact h.busMode_emit (by rw [hbefore]; rfl) }

/-- The reset line's half of a PINCTL write (R158). -/
theorem BusInv.writeRst {s : State} (h : BusInv s) (rst : Bool) :
    BusInv { s.driveRst s.pinctl.rst rst with pinctl := ⟨rst, s.pinctl.bl⟩ } := by
  rcases s.driveRst_cases s.pinctl.rst rst with ⟨hdriven, -, hdrive⟩ | ⟨hstay, hsame⟩
  · obtain ⟨hstep, -⟩ := busStep_lines (phaseMode_ne_undriven hdriven) (phaseMode_ne_settled s) rst
    rw [hdrive]
    exact { h with rstLine := fun _ => rfl, trace := h.busMode_emit hstep }
  · rw [hsame]
    refine { h with rstLine := fun hdriven => ?_ }
    rcases hstay with hun | hlevel
    · exact absurd hdriven (by simp [hun])
    · exact (h.rstLine hdriven).trans hlevel.symm

/-- The backlight line's half of a PINCTL write (R158). -/
theorem BusInv.writeBl {s : State} (h : BusInv s) (bl : Bool) :
    BusInv { s.driveBl s.pinctl.bl bl with pinctl := ⟨s.pinctl.rst, bl⟩ } := by
  rcases s.driveBl_cases s.pinctl.bl bl with ⟨hdriven, -, -, hdrive⟩ | ⟨hstay, hsame⟩
  · obtain ⟨-, hstep⟩ := busStep_lines (phaseMode_ne_undriven hdriven) (phaseMode_ne_settled s) bl
    rw [hdrive]
    exact { h with blLine := fun _ _ => rfl, trace := h.busMode_emit hstep }
  · rw [hsame]
    refine { h with blLine := fun hdriven hhas => ?_ }
    rcases hstay with hun | hnone | hlevel
    · exact absurd hdriven (by simp [hun])
    · exact absurd hhas (by simp [hnone])
    · exact (h.blLine hdriven hhas).trans hlevel.symm

theorem State.driveRst_setPinctl (s : State) (p : Pinctl) (old new : Bool) :
    ({ s with pinctl := p } : State).driveRst old new = { s.driveRst old new with pinctl := p } := by
  unfold State.driveRst
  split <;> rfl

theorem State.driveBl_setPinctl (s : State) (p : Pinctl) (old new : Bool) :
    ({ s with pinctl := p } : State).driveBl old new = { s.driveBl old new with pinctl := p } := by
  unfold State.driveBl
  split <;> rfl

/-- A PINCTL write is its two halves (R158: RST first, then BL). -/
theorem BusInv.writePinctl {s : State} (h : BusInv s) (rst bl : Bool) :
    BusInv ((({ s with pinctl := ⟨rst, bl⟩ } : State).driveRst s.pinctl.rst rst).driveBl s.pinctl.bl bl) := by
  have hboth := (h.writeRst rst).writeBl bl
  rw [State.driveBl_setPinctl] at hboth
  rw [State.driveRst_setPinctl, State.driveBl_setPinctl]
  exact hboth

/-! ## The CDR's phase and the data lane (R195 to R199) -/

/-- Outside phase READ the phase says nothing of the lane. -/
theorem BusInv.setPhase {s : State} {p : CdrPhase} (h : BusInv s) (hs : s.eng.phase.isRead = false)
    (hp : p.isRead = false) (hcdr : p ≠ .count → s.eng.enable = 8#4) : BusInv (s.setPhase p) := by
  have hmode : phaseMode (s.setPhase p) = phaseMode s :=
    (phaseMode_of_not_read (s := s.setPhase p) hp).trans (phaseMode_of_not_read hs).symm
  exact
    { h with
      cdrActive := hcdr
      lane := h.lane.trans (by simp [hs, hp])
      trace := by rw [hmode]; exact h.trace }

/-- The restored lane (R198, R199). -/
theorem BusInv.cdrRestore {s : State} {k : BitVec 16} {first : Bool} (h : BusInv s)
    (hphase : s.eng.phase = .read k first) : BusInv s.cdrRestore := by
  have hdriven : s.pins.driven = true := h.driven_of_phase (by simp [hphase])
  have hstep : busStep (phaseMode s) .dirOut = some .out := by
    rw [phaseMode_of_read hdriven hphase]
    cases first <;> rfl
  have hafter : phaseMode s.cdrRestore = .out :=
    (phaseMode_of_not_read (s := s.cdrRestore) rfl).trans (if_pos hdriven)
  exact
    { h with
      cdrActive := fun hne => absurd rfl hne
      lane := by simp [State.cdrRestore, CdrPhase.isRead]
      trace := by rw [hafter]; exact h.busMode_emit hstep }

theorem State.cdrTerminate_phase (s : State) : s.cdrTerminate.eng.phase = .count := by
  rcases s.cdrTerminate_cases with ⟨hphase, hsame⟩ | ⟨n, -, hcount⟩ | ⟨k, first, -, hout⟩
  · rw [hsame]; exact hphase
  · rw [hcount]
  · rw [hout]

theorem BusInv.cdrTerminate {s : State} (h : BusInv s) : BusInv s.cdrTerminate := by
  rcases s.cdrTerminate_cases with ⟨-, hsame⟩ | ⟨n, hphase, hcount⟩ | ⟨k, first, hphase, hout⟩
  · rw [hsame]; exact h
  · rw [hcount]; exact h.setPhase (p := .count) (by rw [hphase]; rfl) rfl (absurd rfl)
  · rw [hout]; exact h.cdrRestore hphase

/-- The turned lane, after the command byte (R196). -/
theorem BusInv.turnLane {s : State} {n : BitVec 16} (h : BusInv s) (hphase : s.eng.phase = .cmd n) :
    BusInv (s.dirIn.setPhase (.read n true)) := by
  have hdriven : s.pins.driven = true := h.driven_of_phase (by simp [hphase])
  have hbefore : phaseMode s = .out :=
    (phaseMode_of_not_read (by rw [hphase]; rfl)).trans (if_pos hdriven)
  have hafter : phaseMode (s.dirIn.setPhase (.read n true)) = .turned :=
    phaseMode_of_read (s := s.dirIn.setPhase (.read n true)) hdriven rfl
  exact
    { h with
      cdrActive := fun _ => h.cdrActive (by simp [hphase])
      lane := by simp [CdrPhase.isRead]
      trace := by rw [hafter]; exact h.busMode_emit (by rw [hbefore]; rfl) }

/-- A read strobe, the first one after `Settle` (R197). -/
theorem BusInv.strobe {s : State} {k : BitVec 16} {first : Bool} (h : BusInv s)
    (hphase : s.eng.phase = .read k first) (k' : BitVec 16) (d : Byte) :
    BusInv (((if first then s.emit .settle else s).rcycle d).setPhase (.read k' false)) := by
  have hdriven : s.pins.driven = true := h.driven_of_phase (by simp [hphase])
  have hbefore : phaseMode s = if first then .turned else .reading := phaseMode_of_read hdriven hphase
  have hcdr : s.eng.enable = 8#4 := h.cdrActive (by simp [hphase])
  have hinp : s.pins.dataDir = .inp := h.lane.2 (by rw [hphase]; rfl)
  have hstrobe : (if first then s.emit .settle else s) =
      { s with trace := if first then s.trace ++ [.settle] else s.trace } := by
    cases first <;> rfl
  have htrace : busMode ((if first then s.trace ++ [.settle] else s.trace) ++ [.rd d]) = some .reading := by
    rw [busMode_append]
    cases first with
    | true => rw [if_pos rfl, h.busMode_emit (m := .settled) (by rw [hbefore]; rfl)]; rfl
    | false => rw [if_neg Bool.false_ne_true, h.trace, hbefore]; rfl
  rw [hstrobe]
  exact
    { h with
      cdrActive := fun _ => hcdr
      lane := by simp [hinp, CdrPhase.isRead]
      strobes := ⟨h.strobes.1, rfl⟩
      trace := by
        rw [phaseMode_of_read (k := k') (first := false)]
        exacts [htrace, hdriven, rfl] }

/-! ## The engines (R181, R187, R190) -/

theorem BusInv.setEnable {s : State} {en : BitVec 4} (h : BusInv s) (hone : ¬1 < popcount4 en)
    (hconfigured : en ≠ 0#4 → s.cfg.configured = true) (hcdr : s.eng.phase ≠ .count → en = 8#4) :
    BusInv (s.setEnable en) := by
  rw [popcount4_iff, not_not] at hone
  exact { h with oneActive := by simpa using hone, configuredFirst := hconfigured, cdrActive := hcdr }

/-- A clear selects no active engine, so it leaves a CDR outside COUNT alone. -/
theorem BusInv.clear {s : State} (h : BusInv s) (sel : BitVec 4) (hinactive : (selected sel).any s.active = false) :
    BusInv ((selected sel).foldl State.clearEngine s) := by
  have hphase : bitAt sel 3 = true → s.eng.phase = .count := by
    intro hsel
    by_contra hne
    have hmem : Engine.cdr ∈ selected sel := by simp [selected, engines, engineIndex, hsel]
    have hcdr : s.active .cdr = true := by rw [State.active, h.cdrActive hne]; rfl
    exact List.any_eq_false.1 hinactive _ hmem hcdr
  rw [s.clear_eq sel]
  exact h.of_frame (hphase := ite_eq_right_iff.2 fun hsel => (hphase hsel).symm)

theorem BusInv.wcycle {s : State} (h : BusInv s) (hmode : phaseMode s = .out) (dc : Bool) (d : Byte) :
    BusInv (s.wcycle dc d) :=
  { h with
    strobes := ⟨rfl, h.strobes.2⟩
    trace := h.busMode_emit (by rw [hmode]; exact congrArg some hmode.symm) }

/-! ## Every meaning, and every step -/

theorem BusInv.effect {s t : State} (h : BusInv s) (he : Effect s t) : BusInv t := by
  cases he with
  | same => exact h
  | raise | refuse | hold | hostReturn | hostPop | descriptorWrite | transferFields | submit | abort | encOperands
  | encStart | memWrite | windowWrite | winStart =>
    exact h.of_frame
  | configWrite c hc => exact h.configWrite (by rw [hc])
  | pinConflict hun => exact h.setCfg hun _ hun
  | initialised hun => exact h.initialised hun
  | pinctl rst bl => exact h.writePinctl rst bl
  | setEnable en hen hone hcdr =>
    exact h.setEnable hone hen fun hphase => by_contra fun hne => hcdr ⟨h.cdrActive hphase, hne⟩
  | terminate en hone hcdr =>
    obtain ⟨hcdr, -⟩ := hcdr
    have hconfigured : s.cfg.configured = true := h.configuredFirst (by rw [hcdr]; decide)
    exact h.cdrTerminate.setEnable hone (fun _ => by simpa using hconfigured) (absurd s.cdrTerminate_phase)
  | clear sel hinactive => exact h.clear sel hinactive
  | hostPush e w => exact h.hostPush e w
  | delay t => exact { h with trace := h.busMode_emit (busStep_delay (phaseMode_ne_settled s) t) }
  | writeUnit e dc d he hactive =>
    have hpop : BusInv (s.popTx e) := h.of_frame
    have hmode : phaseMode (s.popTx e) = .out :=
      hpop.phaseMode_of_active (e := e) (by simpa [State.active] using hactive) (by rcases he with rfl | rfl <;> decide)
    exact hpop.wcycle hmode dc d
  | tripleUnit a b c hactive =>
    have hpop : BusInv (s.popTx .dwt) := h.of_frame
    have hmode : phaseMode (s.popTx .dwt) = .out := hpop.phaseMode_of_active (e := .dwt) hactive (by decide)
    exact ((hpop.wcycle hmode true a).wcycle hmode true b).wcycle hmode true c
  | countUnit n hactive hphase =>
    exact (h.of_frame (t := s.popTx .cdr)).setPhase (by simp [hphase, CdrPhase.isRead]) rfl
      fun _ => h.enable_of_active hactive
  | commandUnit n d hactive hphase =>
    have hpop : BusInv (s.popTx .cdr) := h.of_frame
    have hmode : phaseMode (s.popTx .cdr) = .out := by
      rw [phaseMode_of_not_read (by simp [hphase, CdrPhase.isRead]), if_pos (hpop.driven_of_active (e := .cdr) hactive)]
    exact (hpop.wcycle hmode false d).turnLane hphase
  | readStrobe k first d hphase => exact (h.strobe hphase (k - 1#16) d).of_frame

/-- Phase READ with nothing left to read is where the restore is enabled (R198). -/
theorem State.restoreEnabled_phase {s : State} (h : s.restoreEnabled = true) :
    ∃ k first, s.eng.phase = .read k first := by
  cases hphase : s.eng.phase with
  | count | cmd => simp [State.restoreEnabled, hphase] at h
  | read k first => exact ⟨k, first, rfl⟩

theorem BusInv.dmaMove {s : State} (h : BusInv s) : BusInv s.dmaMove := by
  unfold State.dmaMove
  split
  · exact h.of_frame
  · split
    · exact h
    · exact h.of_frame

theorem BusInv.dmaUnit {s : State} (h : BusInv s) : BusInv s.dmaUnit := by
  rcases s.dmaUnit_cases with ⟨-, hsame⟩ | ⟨-, hunit⟩
  · rw [hsame]; exact h
  · rw [hunit]
    split
    · exact h.dmaMove.of_frame
    · exact h.dmaMove.of_frame

theorem BusInv.winStep {s : State} (h : BusInv s) : BusInv s.winStep := by
  rcases s.winStep_cases with ⟨-, hsame⟩ | ⟨u, rest, -, -, hmove⟩
  · rw [hsame]; exact h
  · rw [hmove]; exact h.of_frame

/-- Settles O52: every meaning and the CDR's restore emit their events in order, and no other step touches the bus. -/
theorem stepKeepsTheBusInOrder : Obligations.StepKeepsTheBusInOrder := by
  intro s t hs hstep
  exact step_keeps BusInv
    (tick := fun _ h => h.of_frame)
    (unhold := fun _ h => h.of_frame)
    (advance := fun _ h => h.of_frame)
    (refuse := fun _ _ h => h.of_frame)
    (drawn := fun _ h => h.of_frame)
    (meaning := fun _ _ _ hexec h => h.effect (exec_effect hexec))
    (restore := fun _ hr h => by
      obtain ⟨k, first, hphase⟩ := State.restoreEnabled_phase hr
      exact h.cdrRestore hphase)
    (unit := fun _ h => h.dmaUnit)
    (ack := fun _ h => h.of_frame)
    (window := fun _ h => h.winStep)
    hstep hs

end Sys2Proof.Machine
end

section
/-! SUPPORT. The units of CW on their way to the bus (20_memory R92, 42_engines R192, 45_window R333): CW moves the first of
them to the trace, the window sequencer moves one into TXQ[0]; with it the statement CommandUnitsReachTheBusInOrder. -/

namespace Sys2Proof.Machine

theorem cwOutlook_of_frame {s t : State} (htrace : t.trace = s.trace := by simp)
    (hcw : t.eng.txqCw = s.eng.txqCw := by simp) (hpending : t.win.pending = s.win.pending := by simp) :
    cwOutlook t = cwOutlook s := by
  unfold cwOutlook
  rw [htrace, hcw, hpending]

/-- The word the sequencer pushes carries its unit (R333). -/
theorem cwEvent_zeroExtend (u : BitVec 9) : cwEvent (u.zeroExtend 32) = unitEvent u := by
  have hbit : bitAt (u.zeroExtend 32) 8 = bitAt u 8 := by simp [bitAt]
  have hbyte : slice (u.zeroExtend 32) 0 8 = slice u 0 8 := by
    apply BitVec.eq_of_toNat_eq
    simp [slice]
  rw [cwEvent, unitEvent, hbit, hbyte]

/-- With CW active no other engine is. -/
theorem State.active_of_enable_cw {s : State} (hen : s.eng.enable = 1#4) (e : Engine) :
    s.active e = true ↔ e = .cw := by
  unfold State.active
  rw [hen]
  cases e <;> decide

/-! ## The steps of the block agents -/

/-- CW puts the head of TXQ[0] on the bus (R192). -/
theorem cwOutlook_qunitCw {s t : State} {w : Word} {rest : List Word} (hen : s.eng.enable = 1#4)
    (hq : s.eng.txqCw = w :: rest) (h : exec (decodeUnit .cw w) s = .next t) : cwOutlook t = cwOutlook s := by
  have hactive : s.active .cw = true := (State.active_of_enable_cw hen .cw).2 rfl
  have ht : t = (s.popTx .cw).wcycle (bitAt w 8) (slice w 0 8) := by
    have hguard : (s.active .cw && !s.eng.txqCw.isEmpty) = true := by simp [hactive, hq]
    exact (Host.Outcome.next.inj h).symm.trans (if_pos hguard)
  have hrest : t.eng.txqCw = rest := by
    rw [ht]
    exact congrArg List.tail hq
  have htrace : t.trace = s.trace ++ [cwEvent w] := by simp [ht, cwEvent]
  have hpending : t.win.pending = s.win.pending := by simp [ht]
  simp [cwOutlook, hrest, htrace, hpending, hq]

/-- Only an active engine fetches (R180). -/
theorem engineFetch_active {s : State} {e : Engine} {x : Encoded} (h : engineFetch s e = some x) :
    s.active e = true := by
  unfold engineFetch at h
  split at h
  next hactive => exact hactive
  · cases h

/-- What CW fetches is the head of TXQ[0] as its unit (R120). -/
theorem engineFetch_cw {s : State} {x : Encoded} (h : engineFetch s .cw = some x) :
    ∃ w rest, s.eng.txqCw = w :: rest ∧ x = .txUnit .cw w := by
  have hhead : s.eng.txqCw.head?.map (Encoded.txUnit .cw) = some x := by
    have hfetch : engineFetch s .cw = s.eng.txqCw.head?.map (Encoded.txUnit .cw) := if_pos (engineFetch_active h)
    exact hfetch.symm.trans h
  cases hq : s.eng.txqCw with
  | nil => simp [hq] at hhead
  | cons w rest => exact ⟨w, rest, rfl, by simpa [hq, eq_comm] using hhead⟩

theorem cwOutlook_runEngine {e : Engine} {s t : State} (hen : s.eng.enable = 1#4) (h : runEngine e s = .next t) :
    cwOutlook t = cwOutlook s := by
  have hcw : ∀ {x}, engineFetch s e = some x → ∃ w rest, s.eng.txqCw = w :: rest ∧ x = .txUnit .cw w := by
    intro x hfetch
    obtain rfl := (State.active_of_enable_cw hen e).1 (engineFetch_active hfetch)
    exact engineFetch_cw hfetch
  rcases runEngine_cases h with ⟨k, w, hfetch, hexec⟩ | ⟨hfetch, -⟩ | ⟨-, -, hrestore, -⟩ | ⟨-, -, rfl⟩
  · obtain ⟨w', rest, hq, hx⟩ := hcw hfetch
    cases hx
    exact cwOutlook_qunitCw hen hq hexec
  · obtain ⟨w, rest, -, hx⟩ := hcw hfetch
    cases hx
  · have hcdr : s.active .cdr = true := (Bool.and_eq_true_iff.1 hrestore).1
    cases (State.active_of_enable_cw hen .cdr).1 hcdr
  · rfl

/-- A transfer that does not feed TXQ[0] leaves it alone (R236). -/
theorem State.dmaMove_txqCw {s : State} (hqsel : s.dma.qsel ≠ .tx .cw) : s.dmaMove.eng.txqCw = s.eng.txqCw := by
  unfold State.dmaMove
  split
  next e hfeeds =>
    have he : e ≠ .cw := fun he => hqsel (he ▸ hfeeds)
    exact (s.pushTx_txq e .cw _).trans (if_neg he.symm)
  · split
    · rfl
    · rfl

theorem cwOutlook_dmaUnit {s : State} (hfeeder : ¬(s.dma.busy = true ∧ s.dma.qsel = .tx .cw)) :
    cwOutlook s.dmaUnit = cwOutlook s := by
  rcases s.dmaUnit_cases with ⟨-, hsame⟩ | ⟨henabled, hunit⟩
  · rw [hsame]
  · obtain ⟨⟨⟨hbusy, -⟩, -⟩, -⟩ : ((s.dma.busy = true ∧ _) ∧ _) ∧ _ := by
      simpa only [State.dmaUnitEnabled, Bool.and_eq_true] using henabled
    have hmove : cwOutlook s.dmaMove = cwOutlook s :=
      cwOutlook_of_frame (hcw := State.dmaMove_txqCw fun hqsel => hfeeder ⟨hbusy, hqsel⟩)
    rw [hunit, ← hmove]
    split
    · exact cwOutlook_of_frame
    · exact cwOutlook_of_frame

/-- The sequencer moves the first pending unit to the end of TXQ[0] (R333). -/
theorem cwOutlook_winStep (s : State) : cwOutlook s.winStep = cwOutlook s := by
  rcases s.winStep_cases with ⟨-, hsame⟩ | ⟨u, rest, hpending, -, hmove⟩
  · rw [hsame]
  · have hevent := cwEvent_zeroExtend u
    rw [hmove]
    simp only [cwOutlook, hpending, List.map_append, List.map_cons, List.map_nil, hevent, List.append_assoc,
      List.singleton_append]

/-- Settles O46: CW and the sequencer move a unit one place on in the outlook, the other block agents leave it alone. -/
theorem commandUnitsReachTheBusInOrder : Obligations.CommandUnitsReachTheBusInOrder := by
  intro s t hstep hturn hen hfeeder
  obtain ⟨-, -, hrun⟩ := step_cases hstep
  have htick : cwOutlook s.tick = cwOutlook s := cwOutlook_of_frame
  rw [← htick]
  generalize s.nextTurn = u at hturn hrun
  cases u with
  | host => exact absurd rfl hturn
  | engine e => exact cwOutlook_runEngine hen hrun
  | dmaUnit => cases hrun; exact cwOutlook_dmaUnit hfeeder
  | dmaAck => cases hrun; exact cwOutlook_of_frame
  | window => cases hrun; exact cwOutlook_winStep _

end Sys2Proof.Machine
end

section
/-! SUPPORT. The round trip of 30_encoding (R111, R114, R120 to R124): how the registers whose DATA selects the form
decode, the fields of the DATA words that `encode` builds, and with them the statements DecodeOfEncodeIsTheInstruction
and DecodedInstructionsAreWellFormed. -/

namespace Sys2Proof.Laws

/-! ## Access words -/

theorem decode_writeWord (r : Reg) (d : Word) : decode (.access (writeWord r d)) = decodeWrite r d :=
  decodeAccess_writeWord r d

theorem decode_readWord (r : Reg) : decode (.access (readWord r)) = decodeRead r := decodeAccess_readWord r

/-! ## The registers whose DATA selects the form (R112) -/

/-- The form of an ENC_CTRL write with START, by its OP (R114, R271, R304). -/
def encStart (op bpp : BitVec 4) (mode : BitVec 2) (tdir : Bool) : Instr :=
  if op = 0#4 then .wEncCtrlRgb565 bpp mode tdir
  else if op = 1#4 then .wEncCtrlIndexed bpp mode tdir
  else if op = 2#4 then .wEncCtrlGlyph bpp mode tdir
  else if op = 3#4 then .wEncCtrlBitrev bpp mode tdir
  else if op = 4#4 then .wEncCtrlTranspose bpp mode tdir
  else if op = 5#4 then .wEncCtrlReserved1 bpp mode tdir
  else if op = 6#4 ∨ op = 7#4 then .wEncCtrlReserved2 op bpp mode tdir
  else .wEncCtrlReserved3 op bpp mode tdir

theorem decodeWrite_cfgCtrl (d : Word) :
    decodeWrite .cfgCtrl d = .ok (if bitAt d 0 then .wCfgCtrlInit else .wCfgCtrlNop) :=
  (apply_ite Except.ok ..).symm

theorem decodeWrite_dmaCtrl (d : Word) :
    decodeWrite .dmaCtrl d = .ok
      (if bitAt d 0 then .wDmaCtrlSubmit (slice d 1 2) (bitAt d 3) (slice d 4 3)
       else .wDmaCtrlSet (slice d 1 2) (bitAt d 3) (slice d 4 3)) :=
  (apply_ite Except.ok ..).symm

theorem decodeWrite_winCtrl (d : Word) :
    decodeWrite .winCtrl d = .ok (if bitAt d 31 then .wWinCtrlStart (bitAt d 0) else .wWinCtrlSet (bitAt d 0)) :=
  (apply_ite Except.ok ..).symm

theorem decodeWrite_encCtrl (d : Word) :
    decodeWrite .encCtrl d = .ok
      (if bitAt d 31 then encStart (slice d 0 4) (slice d 4 4) (slice d 8 2) (bitAt d 10)
       else .wEncCtrlSet (slice d 0 4) (slice d 4 4) (slice d 8 2) (bitAt d 10)) := by
  simp only [decodeWrite, encStart, apply_ite Except.ok]

/-- RESERVED_3 is OP 8 to 15 (R304). -/
theorem encStart_of_eight_le {op : BitVec 4} (h : 8#4 ≤ op) (bpp : BitVec 4) (mode : BitVec 2) (tdir : Bool) :
    encStart op bpp mode tdir = .wEncCtrlReserved3 op bpp mode tdir := by
  have hne : ∀ k : BitVec 4, k < 8#4 → op ≠ k := fun k hk he => absurd (he ▸ h) (BitVec.not_le.2 hk)
  simp [encStart, hne]

/-! ## The fields of the control words (R49, R54, R59) -/

section Fields
variable (start tdir : Bool) (op bpp : BitVec 4) (mode : BitVec 2)

@[simp] theorem encCtrlData_op : slice (encCtrlData start op bpp mode tdir) 0 4 = op := by
  unfold encCtrlData
  simp (disch := omega) only [slice_append_lo, slice_self]

@[simp] theorem encCtrlData_bpp : slice (encCtrlData start op bpp mode tdir) 4 4 = bpp := by
  unfold encCtrlData
  simp (disch := omega) only [slice_append_lo, slice_append_hi, slice_self, Nat.reduceSub]

@[simp] theorem encCtrlData_mode : slice (encCtrlData start op bpp mode tdir) 8 2 = mode := by
  unfold encCtrlData
  simp (disch := omega) only [slice_append_lo, slice_append_hi, slice_self, Nat.reduceSub]

@[simp] theorem encCtrlData_tdir : bitAt (encCtrlData start op bpp mode tdir) 10 = tdir := by
  unfold encCtrlData
  simp (disch := omega) only [bitAt_append_lo, bitAt_append_hi, bitAt_ofBool, Nat.reduceSub]

@[simp] theorem encCtrlData_start : bitAt (encCtrlData start op bpp mode tdir) 31 = start := by
  unfold encCtrlData
  simp (disch := omega) only [bitAt_append_hi, bitAt_ofBool, Nat.reduceSub]

end Fields

/-- An ENC_CTRL write without START decodes to the form that stores its fields, one with START to the form of its OP. -/
theorem decode_encCtrlData (start tdir : Bool) (op bpp : BitVec 4) (mode : BitVec 2) :
    decode (.access (writeWord .encCtrl (encCtrlData start op bpp mode tdir))) =
      .ok (if start then encStart op bpp mode tdir else .wEncCtrlSet op bpp mode tdir) := by
  simp [decode_writeWord, decodeWrite_encCtrl]

theorem decode_dmaCtrlData (en incr : Bool) (size : BitVec 2) (qsel : BitVec 3) :
    decode (.access (writeWord .dmaCtrl (dmaCtrlData en size incr qsel))) =
      .ok (if en then .wDmaCtrlSubmit size incr qsel else .wDmaCtrlSet size incr qsel) := by
  simp (disch := omega) only [decode_writeWord, decodeWrite_dmaCtrl, dmaCtrlData, slice_append_lo, slice_append_hi,
    slice_self, bitAt_append_lo, bitAt_append_hi, bitAt_ofBool, Nat.reduceSub]

theorem decode_winCtrlData (start orient : Bool) :
    decode (.access (writeWord .winCtrl (winCtrlData start orient))) =
      .ok (if start then .wWinCtrlStart orient else .wWinCtrlSet orient) := by
  simp (disch := omega) only [decode_writeWord, decodeWrite_winCtrl, winCtrlData, bitAt_append_lo, bitAt_append_hi,
    bitAt_ofBool, Nat.reduceSub]

/-! ## The statements -/

/-- Settles O1, form by form: a read word decodes to its register's read, the DATA of a write to the fields it was put
together from, and the OP of an ENC_CTRL START tells its form. -/
theorem decodeOfEncodeIsTheInstruction : Obligations.DecodeOfEncodeIsTheInstruction := by
  intro i hwf
  cases i with
  | rCfgPins | rCfgPins2 | rCfgWclk | rCfgRclk | rCfgStatus | rTxLimit | rRxLimit | rPinctl | rEngEnable | rEngIdle
  | rTxLevel | rRxLevel | rRxqCdr | rDmaAddr | rDmaCount | rDmaCtrl | rDmaAbort | rEncSrc | rEncDst | rEncCount
  | rEncPal | rEncPalLen | rEncFg | rEncBg | rEncDim | rEncCtrl | rEncStatus | rWinX | rWinY | rWinCtrl | rWinCmd | rWinStatus =>
    exact decode_readWord _
  | wCfgWclk | wCfgRclk | wTxqCw | wTxqDwb | wTxqDwt | wTxqCdr | wDmaAddr | wDmaCount | wEncSrc | wEncDst | wEncCount
  | wEncPal =>
    exact decode_writeWord _ _
  | wCfgCtrlInit | wCfgCtrlNop => exact (decode_writeWord _ _).trans (decodeWrite_cfgCtrl _)
  | wCfgPins | wCfgPins2 | wPinctl | wEngEnable | wEngClear | wDmaAbort | wEncPalLen | wEncFg | wEncBg | wEncDim | wWinX
  | wWinY | wWinCmd =>
    simp (disch := omega) only [encode, decode_writeWord, decodeWrite, slice_append_lo, slice_append_hi, slice_self,
      bitAt_append_lo, bitAt_append_hi, bitAt_ofBool, Nat.reduceSub]
  | wDmaCtrlSubmit | wDmaCtrlSet => exact decode_dmaCtrlData _ _ _ _
  | wWinCtrlStart | wWinCtrlSet => exact decode_winCtrlData _ _
  | wEncCtrlSet | wEncCtrlRgb565 | wEncCtrlIndexed | wEncCtrlGlyph | wEncCtrlBitrev | wEncCtrlTranspose
  | wEncCtrlReserved1 =>
    exact decode_encCtrlData _ _ _ _ _
  | wEncCtrlReserved2 op bpp mode tdir =>
    have hop : op = 6#4 ∨ op = 7#4 := by simpa [WellFormed] using hwf
    rcases hop with rfl | rfl
    · exact decode_encCtrlData _ _ _ _ _
    · exact decode_encCtrlData _ _ _ _ _
  | wEncCtrlReserved3 op bpp mode tdir =>
    have hop : 8#4 ≤ op := of_decide_eq_true hwf
    exact (decode_encCtrlData true tdir op bpp mode).trans (congrArg Except.ok (encStart_of_eight_le hop bpp mode tdir))
  | qunitCw | qunitDwb | qunitDwt | qunitCdrCount | qunitCdrCmd =>
    simp (disch := omega) only [encode, decode, decodeUnit, slice_append_lo, slice_append_hi, slice_self,
      bitAt_append_lo, bitAt_append_hi, bitAt_ofBool, Nat.reduceSub]
  | qunitRx | memw | memr | delay => rfl

/-- An OP is that of RESERVED_3 or one of the lower eight (R304). -/
theorem op_cases (op : BitVec 4) :
    8#4 ≤ op ∨ op = 0#4 ∨ op = 1#4 ∨ op = 2#4 ∨ op = 3#4 ∨ op = 4#4 ∨ op = 5#4 ∨ op = 6#4 ∨ op = 7#4 := by
  revert op
  decide

/-- The OP of a reserved form is one its encoding stands for (R304). -/
theorem encStart_wellFormed (op bpp : BitVec 4) (mode : BitVec 2) (tdir : Bool) :
    WellFormed (encStart op bpp mode tdir) = true := by
  rcases op_cases op with h | rfl | rfl | rfl | rfl | rfl | rfl | rfl | rfl
  · rw [encStart_of_eight_le h]
    exact decide_eq_true h
  all_goals rfl

theorem decodeWrite_wellFormed {r : Reg} {d : Word} {i : Instr} (h : decodeWrite r d = .ok i) :
    WellFormed i = true := by
  cases r with
  | cfgCtrl =>
    cases (decodeWrite_cfgCtrl d).symm.trans h
    split <;> rfl
  | dmaCtrl =>
    cases (decodeWrite_dmaCtrl d).symm.trans h
    split <;> rfl
  | winCtrl =>
    cases (decodeWrite_winCtrl d).symm.trans h
    split <;> rfl
  | encCtrl =>
    cases (decodeWrite_encCtrl d).symm.trans h
    split
    · exact encStart_wellFormed _ _ _ _
    · rfl
  | _ => cases h <;> rfl

theorem decodeRead_wellFormed {r : Reg} {i : Instr} (h : decodeRead r = .ok i) : WellFormed i = true := by
  cases r <;> cases h <;> rfl

/-- Settles O2: only an ENC_CTRL START can decode to a reserved form, and its OP is then the one decoded. -/
theorem decodedInstructionsAreWellFormed : Obligations.DecodedInstructionsAreWellFormed := by
  intro x i h
  cases x with
  | access w =>
    obtain ⟨r, -, -, ⟨-, hwrite⟩ | ⟨-, -, hread⟩⟩ := decodeAccess_cases h
    · exact decodeWrite_wellFormed hwrite
    · exact decodeRead_wellFormed hread
  | txUnit k w =>
    cases h
    cases k <;> rfl
  | rxUnit | memw | memr | delay =>
    cases h
    rfl

end Sys2Proof.Laws
end

section
/-! SUPPORT. What decoding keeps of a word (30_encoding R113, R120 to R123): the fields that decoding takes out of a
DATA or queue word, put together again, are its bits that are not reserved; with it the statement
DecodingDropsOnlyReservedBits. -/

namespace Sys2Proof.Laws

open Sys2Proof.Machine

/-! ## Masks -/

theorem ofBool_bitAt_toNat {w : Nat} (v : BitVec w) (i : Nat) :
    (BitVec.ofBool (bitAt v i)).toNat = v.toNat / 2 ^ i % 2 := by
  rw [BitVec.toNat_ofBool, bitAt_eq]
  rcases Nat.mod_two_eq_zero_or_one (v.toNat / 2 ^ i) with h | h <;> rw [h] <;> rfl

/-- Masking with `n` one bits is the remainder modulo 2^n. -/
theorem and_lowMask_toNat {w n : Nat} (v : BitVec w) (h : n ≤ w) :
    (v &&& BitVec.ofNat w (2 ^ n - 1)).toNat = v.toNat % 2 ^ n := by
  have hn : 2 ^ n ≤ 2 ^ w := Nat.pow_le_pow_right (by decide) h
  have hlt : 2 ^ n - 1 < 2 ^ w := by have := Nat.two_pow_pos n; omega
  rw [BitVec.toNat_and, BitVec.toNat_ofNat, Nat.mod_eq_of_lt hlt, Nat.and_two_pow_sub_one_eq_mod]

/-- A word equal to `v` modulo 2^n is `v` masked with `n` one bits. -/
theorem eq_and_lowMask {v e : Word} (n : Nat) (hn : n ≤ 32) (h : e.toNat = v.toNat % 2 ^ n) :
    e = v &&& BitVec.ofNat 32 (2 ^ n - 1) :=
  BitVec.eq_of_toNat_eq (h.trans (and_lowMask_toNat v hn).symm)

/-- A word is its top bit and the rest, so masking them apart masks the word. -/
theorem eq_and_topLowMask {v e : Word} (n : Nat) (hn : n ≤ 31)
    (h : e.toNat = v.toNat / 2 ^ 31 * 2 ^ 31 + v.toNat % 2 ^ n) :
    e = v &&& (1#1 ++ BitVec.ofNat 31 (2 ^ n - 1)) := by
  have hv : v = slice v 31 1 ++ slice v 0 31 := by
    apply BitVec.eq_of_toNat_eq
    simp only [append_toNat, slice_toNat]
    omega
  have hmask : v &&& (1#1 ++ BitVec.ofNat 31 (2 ^ n - 1)) =
      (slice v 31 1 &&& 1#1) ++ (slice v 0 31 &&& BitVec.ofNat 31 (2 ^ n - 1)) :=
    (congrArg (· &&& _) hv).trans (BitVec.and_append (w := 1) (v := 31))
  have hmod : v.toNat % 2 ^ 31 % 2 ^ n = v.toNat % 2 ^ n := Nat.mod_mod_of_dvd _ (Nat.pow_dvd_pow 2 hn)
  have htop : slice v 31 1 &&& 1#1 = slice v 31 1 := BitVec.and_allOnes
  apply BitVec.eq_of_toNat_eq
  rw [h, hmask, htop, append_toNat, and_lowMask_toNat _ hn]
  simp only [slice_toNat, Nat.pow_zero, Nat.div_one, hmod]
  omega

/-! ## The fields of a DATA or queue word are its bits under the mask (R49, R54, R59, R113, R120 to R123) -/

section Fields
variable (v : Word)

theorem fields_bit0 : 0#31 ++ BitVec.ofBool (bitAt v 0) = v &&& 0x1#32 :=
  eq_and_lowMask 1 (by decide)
    (by simp only [append_toNat, ofBool_bitAt_toNat, BitVec.toNat_ofNat]; omega)

theorem fields_bits2 : 0#30 ++ BitVec.ofBool (bitAt v 1) ++ BitVec.ofBool (bitAt v 0) = v &&& 0x3#32 :=
  eq_and_lowMask 2 (by decide)
    (by simp only [append_toNat, ofBool_bitAt_toNat, BitVec.toNat_ofNat]; omega)

theorem fields_low4 : 0#28 ++ slice v 0 4 = v &&& 0xF#32 :=
  eq_and_lowMask 4 (by decide) (by simp only [append_toNat, slice_toNat, BitVec.toNat_ofNat]; omega)

theorem fields_dmaCtrl :
    dmaCtrlData (bitAt v 0) (slice v 1 2) (bitAt v 3) (slice v 4 3) = v &&& 0x7F#32 :=
  eq_and_lowMask 7 (by decide)
    (by simp only [dmaCtrlData, append_toNat, slice_toNat, ofBool_bitAt_toNat, BitVec.toNat_ofNat]; omega)

theorem fields_byte : 0#24 ++ slice v 0 8 = v &&& 0xFF#32 :=
  eq_and_lowMask 8 (by decide) (by simp only [append_toNat, slice_toNat, BitVec.toNat_ofNat]; omega)

theorem fields_low9 : 0#23 ++ slice v 0 9 = v &&& 0x1FF#32 :=
  eq_and_lowMask 9 (by decide) (by simp only [append_toNat, slice_toNat, BitVec.toNat_ofNat]; omega)

theorem fields_dcByte : 0#23 ++ BitVec.ofBool (bitAt v 8) ++ slice v 0 8 = v &&& 0x1FF#32 :=
  eq_and_lowMask 9 (by decide)
    (by simp only [append_toNat, slice_toNat, ofBool_bitAt_toNat, BitVec.toNat_ofNat]; omega)

theorem fields_half : 0#16 ++ slice v 0 16 = v &&& 0xFFFF#32 :=
  eq_and_lowMask 16 (by decide) (by simp only [append_toNat, slice_toNat, BitVec.toNat_ofNat]; omega)

theorem fields_bytes2 : 0#16 ++ slice v 8 8 ++ slice v 0 8 = v &&& 0xFFFF#32 :=
  eq_and_lowMask 16 (by decide) (by simp only [append_toNat, slice_toNat, BitVec.toNat_ofNat]; omega)

theorem fields_bytes3 : 0#8 ++ slice v 16 8 ++ slice v 8 8 ++ slice v 0 8 = v &&& 0xFFFFFF#32 :=
  eq_and_lowMask 24 (by decide) (by simp only [append_toNat, slice_toNat, BitVec.toNat_ofNat]; omega)

theorem fields_encCtrl :
    encCtrlData (bitAt v 31) (slice v 0 4) (slice v 4 4) (slice v 8 2) (bitAt v 10) = v &&& 0x800007FF#32 :=
  eq_and_topLowMask 11 (by decide) (by
    have := v.isLt
    simp only [encCtrlData, append_toNat, slice_toNat, ofBool_bitAt_toNat, BitVec.toNat_ofNat]
    omega)

theorem fields_winCtrl : winCtrlData (bitAt v 31) (bitAt v 0) = v &&& 0x80000001#32 :=
  eq_and_topLowMask 1 (by decide) (by
    have := v.isLt
    simp only [winCtrlData, append_toNat, ofBool_bitAt_toNat, BitVec.toNat_ofNat]
    omega)

end Fields

/-! ## The encoding of a decoded write or read -/

theorem encode_encStart (op bpp : BitVec 4) (mode : BitVec 2) (tdir : Bool) :
    encode (encStart op bpp mode tdir) = .access (writeWord .encCtrl (encCtrlData true op bpp mode tdir)) := by
  rcases op_cases op with h | rfl | rfl | rfl | rfl | rfl | rfl | rfl | rfl
  · rw [encStart_of_eight_le h, encode]
  all_goals rfl

theorem and_fullMask (d : Word) : d &&& 0xFFFFFFFF#32 = d := BitVec.and_allOnes

/-- The encoding of what a write decodes to writes the DATA bits that are not reserved. -/
theorem encode_of_decodeWrite {r : Reg} {d : Word} {i : Instr} (h : decodeWrite r d = .ok i) :
    encode i = .access (writeWord r (d &&& significantData r)) := by
  cases r with
  | cfgCtrl =>
    cases (decodeWrite_cfgCtrl d).symm.trans h
    rw [significantData, ← fields_bit0]
    cases bitAt d 0 <;> rfl
  | dmaCtrl =>
    cases (decodeWrite_dmaCtrl d).symm.trans h
    rw [significantData, ← fields_dmaCtrl]
    cases bitAt d 0 <;> rfl
  | encCtrl =>
    cases (decodeWrite_encCtrl d).symm.trans h
    rw [significantData, ← fields_encCtrl]
    cases bitAt d 31
    · rfl
    · exact encode_encStart _ _ _ _
  | winCtrl =>
    cases (decodeWrite_winCtrl d).symm.trans h
    rw [significantData, ← fields_winCtrl]
    cases bitAt d 31 <;> rfl
  | cfgPins => cases h; simp only [encode, significantData, and_fullMask, append_bytes4]
  | cfgPins2 => cases h; rw [significantData, ← fields_bytes2, encode]
  | pinctl => cases h; rw [significantData, ← fields_bits2, encode]
  | engEnable | engClear => cases h; rw [significantData, ← fields_low4, encode]
  | dmaAbort => cases h; rw [significantData, ← fields_bit0, encode]
  | encPalLen => cases h; rw [significantData, ← fields_low9, encode]
  | encFg | encBg | winCmd => cases h; rw [significantData, ← fields_bytes3, encode]
  | encDim | winX | winY => cases h; simp only [encode, significantData, and_fullMask, append_halves]
  | cfgWclk | cfgRclk | txqCw | txqDwb | txqDwt | txqCdr | dmaAddr | dmaCount | encSrc | encDst | encCount | encPal =>
    cases h; simp only [encode, significantData, and_fullMask]
  | cfgStatus | txLimit | rxLimit | engIdle | txLevel | rxLevel | rxqCdr | encStatus | winStatus => cases h

theorem encode_of_decodeRead {r : Reg} {i : Instr} (h : decodeRead r = .ok i) : encode i = .access (readWord r) := by
  cases r <;> cases h <;> rfl

/-! ## Words and their reserved bits -/

/-- A word with the top, direction and offset of an access is that access of its own DATA (R111). -/
theorem append_of_fields (w : AccessWord) :
    w = slice w 45 3 ++ BitVec.ofBool (bitAt w 44) ++ slice w 32 12 ++ slice w 0 32 := by
  apply BitVec.eq_of_toNat_eq
  simp only [append_toNat, slice_toNat, ofBool_bitAt_toNat]
  have := w.isLt
  omega

theorem writeWord_and_significant (r : Reg) (d : Word) :
    writeWord r d &&& (0xFFFF#16 ++ significantData r) = writeWord r (d &&& significantData r) :=
  writeWord_and r d (significantData r) _ _ _ rfl rfl rfl

theorem readWord_and_significant (r : Reg) :
    readWord r &&& (0xFFFF#16 ++ significantData r) = readWord r := by
  cases r <;> decide

theorem significantBits_of_off {w : AccessWord} {r : Reg} (h : slice w 32 12 = r.offset) :
    significantBits w = 0xFFFF#16 ++ significantData r := by
  simp [significantBits, h, ofOffset_offset]

/-- The encoding of a queue unit is its word without the ignored bits (R120 to R123). -/
theorem encode_decodeUnit (k : UnitKind) (w : Word) : encode (decodeUnit k w) = .txUnit k (w &&& unitBits k) := by
  cases k with
  | cw => exact congrArg (Encoded.txUnit .cw) (fields_dcByte w)
  | dwb => exact congrArg (Encoded.txUnit .dwb) (fields_byte w)
  | dwt => exact congrArg (Encoded.txUnit .dwt) (fields_bytes3 w)
  | cdrCount => exact congrArg (Encoded.txUnit .cdrCount) (fields_half w)
  | cdrCmd => exact congrArg (Encoded.txUnit .cdrCmd) (fields_byte w)

/-- Settles O3: a word that decodes is the write or the read of one register, and its encoding is that access with the
DATA bits that are not reserved. -/
theorem decodingDropsOnlyReservedBits : Obligations.DecodingDropsOnlyReservedBits := by
  refine ⟨fun w i h => ?_, encode_decodeUnit⟩
  obtain ⟨r, htop, hoff, hcase⟩ := decodeAccess_cases h
  rw [significantBits_of_off hoff]
  have hw := append_of_fields w
  rw [htop, hoff] at hw
  rcases hcase with ⟨hdir, hwrite⟩ | ⟨hdir, hdata, hread⟩
  · have hw : w = writeWord r (slice w 0 32) := by rw [hdir] at hw; exact hw
    rw [encode_of_decodeWrite hwrite, ← writeWord_and_significant, ← hw]
  · have hw : w = readWord r := by rw [hdir, hdata] at hw; exact hw
    rw [encode_of_decodeRead hread, hw, readWord_and_significant]

end Sys2Proof.Laws
end

section
/-! SUPPORT. The access words that are no instruction (30_encoding R112, R126, 60_exceptions R406): which registers
have no write form, which no read form, which offsets are in R70; with them the statements
InvalidAccessWordsAreRefused and SpecWordsDecodeAsWritten. -/

namespace Sys2Proof.Laws

open Sys2Proof.Machine

/-- The read-only registers have no write form, whatever the DATA (R126). -/
theorem decodeWrite_error_iff (r : Reg) (d : Word) :
    (∃ e, decodeWrite r d = .error e) ↔
      r.offset.toNat ∈ [0x014, 0x018, 0x01C, 0x044, 0x04C, 0x050, 0x070, 0x0E4, 0x110] := by
  cases r with
  | cfgStatus | txLimit | rxLimit | engIdle | txLevel | rxLevel | rxqCdr | encStatus | winStatus =>
    exact iff_of_true ⟨_, rfl⟩ (by decide)
  | cfgCtrl => exact iff_of_false (fun ⟨_, h⟩ => nomatch (decodeWrite_cfgCtrl d).symm.trans h) (by decide)
  | dmaCtrl => exact iff_of_false (fun ⟨_, h⟩ => nomatch (decodeWrite_dmaCtrl d).symm.trans h) (by decide)
  | encCtrl => exact iff_of_false (fun ⟨_, h⟩ => nomatch (decodeWrite_encCtrl d).symm.trans h) (by decide)
  | winCtrl => exact iff_of_false (fun ⟨_, h⟩ => nomatch (decodeWrite_winCtrl d).symm.trans h) (by decide)
  | _ => exact iff_of_false (fun ⟨_, h⟩ => nomatch h) (by decide)

/-- The write-only registers have no read form (R126). -/
theorem decodeRead_error_iff (r : Reg) :
    (∃ e, decodeRead r = .error e) ↔ r.offset.toNat ∈ [0x010, 0x048, 0x060, 0x064, 0x068, 0x06C] := by
  cases r with
  | cfgCtrl | engClear | txqCw | txqDwb | txqDwt | txqCdr => exact iff_of_true ⟨_, rfl⟩ (by decide)
  | _ => exact iff_of_false (fun ⟨_, h⟩ => nomatch h) (by decide)

/-- An offset is the one of a register exactly when it is listed. -/
theorem ofOffset_eq_none_iff (off : BitVec 12) :
    Reg.ofOffset off = none ↔ off.toNat ∉ Reg.all.map fun r => r.offset.toNat := by
  simp [Reg.ofOffset, List.find?_eq_none, BitVec.toNat_inj]

/-- OFF is a multiple of 4 exactly when its low two bits are 0. -/
theorem slice_two_eq_zero_iff (off : BitVec 12) : slice off 0 2 = 0#2 ↔ off.toNat % 4 = 0 := by
  rw [← BitVec.toNat_inj, slice_toNat, Nat.pow_zero, Nat.div_one]
  rfl

/-! ## The branches of decoding an access word -/

theorem decodeAccess_of_top {w : AccessWord} (htop : slice w 45 3 ≠ 0#3) :
    decodeAccess w = .error .unmappedOffset := if_pos htop

theorem decodeAccess_of_misaligned {w : AccessWord} (htop : slice w 45 3 = 0#3)
    (hmis : slice (slice w 32 12) 0 2 ≠ 0#2) : decodeAccess w = .error .badAccess :=
  (if_neg (not_not.2 htop)).trans (if_pos hmis)

theorem decodeAccess_of_unmapped {w : AccessWord} (htop : slice w 45 3 = 0#3)
    (halign : slice (slice w 32 12) 0 2 = 0#2) (hmap : Reg.ofOffset (slice w 32 12) = none) :
    decodeAccess w = .error .unmappedOffset := by
  simp [decodeAccess, htop, halign, hmap]

theorem decodeAccess_of_register {w : AccessWord} {r : Reg} (htop : slice w 45 3 = 0#3)
    (hoff : slice w 32 12 = r.offset) :
    decodeAccess w =
      if bitAt w 44 then decodeWrite r (slice w 0 32)
      else if slice w 0 32 ≠ 0#32 then .error .badAccess
      else decodeRead r := by
  simp [decodeAccess, htop, hoff, offset_aligned, ofOffset_offset]

/-- Of a word that addresses a register, what is left to be invalid is the direction and the DATA of a read. -/
theorem invalidAccess_of_register {w : AccessWord} {r : Reg} (htop : slice w 45 3 = 0#3)
    (hoff : slice w 32 12 = r.offset) :
    InvalidAccess w ↔
      (bitAt w 44 = false ∧ slice w 0 32 ≠ 0#32) ∨
        (bitAt w 44 = true ∧ ∃ e, decodeWrite r (slice w 0 32) = .error e) ∨
          (bitAt w 44 = false ∧ ∃ e, decodeRead r = .error e) := by
  have halign : r.offset.toNat % 4 = 0 := (slice_two_eq_zero_iff _).1 (offset_aligned r)
  have hmap : r.offset.toNat ∈ Reg.all.map fun r => r.offset.toNat := by cases r <;> decide
  rw [decodeWrite_error_iff, decodeRead_error_iff, ← hoff]
  rw [← hoff] at halign hmap
  refine (or_iff_right (not_not.2 htop)).trans ((or_iff_right (not_not.2 halign)).trans (or_iff_right (not_not.2 hmap)))

/-- The words that decode to nothing are those of R126. -/
theorem decodeAccess_error_iff (w : AccessWord) : (∃ e, decodeAccess w = .error e) ↔ InvalidAccess w := by
  by_cases htop : slice w 45 3 = 0#3
  swap
  · exact iff_of_true ⟨_, decodeAccess_of_top htop⟩ (.inl htop)
  by_cases halign : slice (slice w 32 12) 0 2 = 0#2
  swap
  · have hmis : (slice w 32 12).toNat % 4 ≠ 0 := (slice_two_eq_zero_iff _).not.1 halign
    exact iff_of_true ⟨_, decodeAccess_of_misaligned htop halign⟩ (.inr (.inl hmis))
  cases hreg : Reg.ofOffset (slice w 32 12) with
  | none =>
    have hunmapped := (ofOffset_eq_none_iff _).1 hreg
    exact iff_of_true ⟨_, decodeAccess_of_unmapped htop halign hreg⟩ (.inr (.inr (.inl hunmapped)))
  | some r =>
    have hoff : slice w 32 12 = r.offset := (offset_of_ofOffset hreg).symm
    rw [invalidAccess_of_register htop hoff, decodeAccess_of_register htop hoff]
    cases bitAt w 44 with
    | true => simp
    | false => by_cases hdata : slice w 0 32 = 0#32 <;> simp [hdata]

/-- Settles O4: the refused words are those that decode to nothing, and the host presents an access word as it
stands. -/
theorem invalidAccessWordsAreRefused : Obligations.InvalidAccessWordsAreRefused := by
  refine ⟨decodeAccess_error_iff, fun s w rest hprogram hinvalid => ?_⟩
  obtain ⟨e, he⟩ := (decodeAccess_error_iff w).2 hinvalid
  have hdecode : hostDecode s.params (.access w) = .error e := he
  exact ⟨refusalOf e, by simp only [runHost, hprogram, hdecode]; rfl⟩

/-- Settles O5: the words of the spec's examples, each computed by the decoder. -/
theorem specWordsDecodeAsWritten : Obligations.SpecWordsDecodeAsWritten := by
  unfold Obligations.SpecWordsDecodeAsWritten
  decide

end Sys2Proof.Laws
end

section
/-! SUPPORT. The turns that run an instruction (30_encoding R110, R112, R120 to R125, R131, 42_engines R192 to R197):
the host's on the operation first in its program, an engine's on the unit at the head of its queue; with them the
statements HostStepRunsTheDecodedOperation and EngineStepRunsItsUnit. -/

namespace Sys2Proof.Machine

/-! ## The host's step -/

theorem State.hostDone_eq (t : State) :
    t.hostDone = if t.host.held = none ∧ t.refused = none then t.hostAdvance else t := by
  unfold State.hostDone
  cases t.host.held <;> cases t.refused <;> rfl

theorem runHost_of_ok {s t : State} {op : HostOp} {rest : List HostOp} {i : Instr}
    (hprogram : s.host.program = op :: rest) (hdecode : hostDecode s.params op = .ok i)
    (hexec : exec i s.unhold = .next t) : runHost s = .next t.hostDone := by
  simp only [runHost, hprogram, hdecode, hexec]

theorem runHost_of_error {s : State} {op : HostOp} {rest : List HostOp} {e : DecodeError}
    (hprogram : s.host.program = op :: rest) (hdecode : hostDecode s.params op = .error e) :
    runHost s = .next (s.refuse (refusalOf e)) := by
  simp only [runHost, hprogram, hdecode]

/-! ## An access by byte address (R80, R84) -/

theorem hostDecode_bus_width (p : Params) (write : Bool) {width : Nat} (addr data : Word) (h : width ≠ 32) :
    hostDecode p (.bus write width addr data) = .error .badAccess := by
  simp only [hostDecode, hostFetch, busAccess, if_pos h]

/-- OFF is read back from the address it is added to (R13). -/
theorem slice_offset_of_addr (base : Word) (off : BitVec 12) :
    (base + off.zeroExtend 32 - base).toNat < 2 ^ 12 ∧ slice (base + off.zeroExtend 32 - base) 0 12 = off := by
  have hsub : base + off.zeroExtend 32 - base = off.zeroExtend 32 := by bv_omega
  have hoff : (off.zeroExtend 32).toNat = off.toNat := by
    rw [BitVec.toNat_setWidth]
    omega
  rw [hsub, hoff]
  refine ⟨off.isLt, BitVec.eq_of_toNat_eq ?_⟩
  rw [Laws.slice_toNat, hoff]
  omega

theorem hostDecode_bus_offset (p : Params) (write : Bool) (data : Word) (off : BitVec 12) :
    hostDecode p (.bus write 32 (p.base + off.zeroExtend 32) data) =
      decode (.access (0#3 ++ BitVec.ofBool write ++ off ++ if write then data else 0#32)) := by
  obtain ⟨hlt, hslice⟩ := slice_offset_of_addr p.base off
  simp only [hostDecode, hostFetch, busAccess, if_neg (not_not.2 (rfl : 32 = 32)), if_neg (Nat.not_le.2 hlt), hslice]

/-- Only an address within 2^12 bytes from BASE is reached by an OFF. -/
theorem hostDecode_bus_unmapped (p : Params) (write : Bool) (addr data : Word)
    (h : ∀ off : BitVec 12, addr ≠ p.base + off.zeroExtend 32) :
    hostDecode p (.bus write 32 addr data) = .error .unmappedOffset := by
  have hfar : 2 ^ 12 ≤ (addr - p.base).toNat := by
    by_contra hnear
    apply h (slice (addr - p.base) 0 12)
    have hoff : (slice (addr - p.base) 0 12).zeroExtend 32 = addr - p.base := by
      apply BitVec.eq_of_toNat_eq
      rw [BitVec.toNat_setWidth, Laws.slice_toNat]
      omega
    rw [hoff]
    bv_omega
  simp only [hostDecode, hostFetch, busAccess, if_neg (not_not.2 (rfl : 32 = 32)), if_pos hfar]

/-- Settles O6: the step is the host's turn after the bookkeeping, which leaves the program and the parameters alone. -/
theorem hostStepRunsTheDecodedOperation : Obligations.HostStepRunsTheDecodedOperation := by
  refine ⟨?_, ?_, fun p => ⟨fun _ => rfl, fun _ _ _ => rfl, fun _ _ => rfl, fun _ => rfl, ?_⟩⟩
  · intro s op rest i t hfaults hrefused hturn hprogram hdecode hexec
    rw [step_eq hfaults hrefused, hturn, ← State.hostDone_eq]
    exact runHost_of_ok (s := s.tick) hprogram hdecode hexec
  · intro s op rest e hfaults hrefused hturn hprogram hdecode
    rw [step_eq hfaults hrefused, hturn]
    exact runHost_of_error (s := s.tick) hprogram hdecode
  · intro write width addr data
    refine ⟨hostDecode_bus_width p write addr data, fun off haddr => ?_, hostDecode_bus_unmapped p write addr data⟩
    rw [haddr]
    exact hostDecode_bus_offset p write data off

/-! ## An engine's step -/

/-- An active engine with a word queued runs it as a unit of the format of its place (R125). -/
theorem runEngine_unit {s : State} {e : Engine} {k : UnitKind} {w : Word} {rest : List Word}
    (hactive : s.active e = true) (hkind : unitKind s e = some k) (hqueue : s.txq e = w :: rest) :
    runEngine e s = exec (decodeUnit k w) s := by
  have hfetch : engineFetch s e = some (.txUnit k w) := by simp [engineFetch, hactive, hkind, hqueue]
  simp only [runEngine, hfetch]
  rfl

/-- The CDR in phase READ, with strobes left and room in RXQ, runs the byte the device answers (R197). -/
theorem runEngine_strobe {s : State} {k : BitVec 16} {first : Bool} (hactive : s.active .cdr = true)
    (hphase : s.eng.phase = .read k first) (hleft : k ≠ 0#16) (hroom : s.eng.rxq.length < s.params.qDepth) :
    runEngine .cdr s = exec (.qunitRx s.deviceByte) s.drawn := by
  have henabled : s.readEnabled = true := by simp [State.readEnabled, hactive, hphase, hleft, hroom]
  have hfetch : engineFetch s .cdr = some (.rxUnit s.deviceByte) := by
    simp [engineFetch, unitKind, cdrUnitKind, hactive, hphase, henabled]
  simp only [runEngine, hfetch]
  rfl

/-- The bookkeeping of a step leaves an engine's queue, its place and its enabling alone. -/
theorem step_unit {s : State} {e : Engine} {k : UnitKind} {w : Word} {rest : List Word} (hfaults : s.faults = [])
    (hrefused : s.refused = none) (hturn : s.nextTurn = .engine e) (hactive : s.active e = true)
    (hkind : unitKind s e = some k) (hqueue : s.txq e = w :: rest) : step s = exec (decodeUnit k w) s.tick := by
  have hqueue' : s.tick.txq e = w :: rest := by cases e <;> exact hqueue
  have hkind' : unitKind s.tick e = some k := by cases e <;> exact hkind
  rw [step_eq hfaults hrefused, hturn]
  exact runEngine_unit (s := s.tick) hactive hkind' hqueue'

/-- Settles O7: an engine's turn runs the head of its queue, the CDR's phase telling a count from a command and both
from a read strobe. -/
theorem engineStepRunsItsUnit : Obligations.EngineStepRunsItsUnit := by
  intro s hfaults hrefused
  refine ⟨?cw, ?dwb, ?dwt, ?count, ?cmd, ?read⟩
  case cw => exact fun w rest hturn hactive hqueue => step_unit hfaults hrefused hturn hactive rfl hqueue
  case dwb => exact fun w rest hturn hactive hqueue => step_unit hfaults hrefused hturn hactive rfl hqueue
  case dwt => exact fun w rest hturn hactive hqueue => step_unit hfaults hrefused hturn hactive rfl hqueue
  case count =>
    intro w rest hturn hactive hqueue hphase
    exact step_unit hfaults hrefused hturn hactive (congrArg cdrUnitKind hphase) hqueue
  case cmd =>
    intro w rest n hturn hactive hqueue hphase
    exact step_unit hfaults hrefused hturn hactive (congrArg cdrUnitKind hphase) hqueue
  case read =>
    intro k first hturn hactive hphase hleft hroom
    rw [step_eq hfaults hrefused, hturn]
    exact runEngine_strobe (s := s.tick) hactive hphase hleft hroom

end Sys2Proof.Machine
end

section
/-! SUPPORT. The host's memory accesses (20_memory R82, R90, 30_encoding R131): their addresses, the bytes of a
little-endian value read, and the two checks as statements about bytes; with them the statement HostMemoryOperations.
-/

namespace Sys2Proof.Machine

/-! ## The bytes of an access -/

theorem byteAddr_eq (a : Word) (i : Nat) : byteAddr a i = (a.toNat + i) % 2 ^ 32 := by
  rw [byteAddr, BitVec.toNat_add, BitVec.toNat_ofNat, Nat.add_mod_mod]

theorem sizeBytes_le (n : AccessSize) : sizeBytes n ≤ 4 := by cases n <;> decide

/-- Every byte of the access is memory (R131). -/
theorem State.hostValid_iff (s : State) (a : Word) (n : AccessSize) :
    s.hostValid a n = true ↔ ∀ i < sizeBytes n, memValid s.params ((a.toNat + i) % 2 ^ 32) = true := by
  simp [State.hostValid, hostBytes, byteAddr_eq]

/-- A byte of the access lies in the range of the transfer (R90). -/
theorem State.hostTouchesTransfer_iff (s : State) (a : Word) (n : AccessSize) :
    s.hostTouchesTransfer a n = true ↔
      ∃ i < sizeBytes n, s.dma.lo ≤ (a.toNat + i) % 2 ^ 32 ∧ (a.toNat + i) % 2 ^ 32 < s.dma.hi := by
  simp [State.hostTouchesTransfer, hostBytes, byteAddr_eq]

theorem State.rxOwned_iff (s : State) : s.rxOwned = true ↔ s.dma.busy = true ∧ s.dma.qsel = .rx := by
  simp [State.rxOwned]

/-! ## The value of a read (R82) -/

/-- Bit `j` of a value read is bit `j % 8` of byte `j / 8`, and 0 past the bytes read. -/
theorem Memory.readLE_getLsbD (m : Memory) (a : Word) {n : Nat} (hn : n ≤ 4) (j : Nat) :
    (m.readLE a n).getLsbD j = (decide (j < 8 * n) && (m.read (byteAddr a (j / 8))).getLsbD (j % 8)) := by
  induction n with
  | zero => simp [Memory.readLE]
  | succ n ih =>
    rw [Memory.readLE, BitVec.getLsbD_or, ih (by omega), BitVec.getLsbD_shiftLeft, BitVec.getLsbD_setWidth]
    by_cases hbefore : j < 8 * n
    · simp [hbefore, Nat.lt_add_right 8 hbefore, Nat.mul_succ]
    · by_cases hlast : j < 8 * (n + 1)
      · have hbyte : j / 8 = n := by omega
        have hbit : j % 8 = j - 8 * n := by omega
        simp [hbefore, hlast, hbyte, hbit, show j < 32 by omega, show j - 8 * n < 32 by omega]
      · have hpast : (m.read (byteAddr a n)).getLsbD (j - 8 * n) = false := BitVec.getLsbD_of_ge _ _ (by omega)
        simp [hbefore, hlast, hpast]

/-- Byte `i` of a value read is the one at distance `i` from the address. -/
theorem Memory.slice_readLE (m : Memory) (a : Word) {n i : Nat} (hn : n ≤ 4) (hi : i < n) :
    slice (m.readLE a n) (8 * i) 8 = m.read (byteAddr a i) := by
  apply BitVec.eq_of_getLsbD_eq
  intro k hk
  have hbyte : (8 * i + k) / 8 = i := by omega
  have hbit : (8 * i + k) % 8 = k := by omega
  have hin : 8 * i + k < 8 * n := by omega
  simp [slice, Memory.readLE_getLsbD m a hn, hk, hbyte, hbit, hin]

/-- A value read has no bit past the bytes read. -/
theorem Memory.readLE_lt (m : Memory) (a : Word) {n : Nat} (hn : n ≤ 4) : (m.readLE a n).toNat < 2 ^ (8 * n) := by
  refine Nat.lt_pow_two_of_testBit _ fun j hj => ?_
  rw [BitVec.testBit_toNat, Memory.readLE_getLsbD m a hn, decide_eq_false (Nat.not_lt.2 hj), Bool.false_and]

/-! ## The meanings, case by case (R131) -/

theorem exec_memw_of_invalid {s : State} {a : Word} {n : AccessSize} (v : Word) (h : s.hostValid a n = false) :
    exec (.memw a n v) s = .next (s.refuse .badHostMemory) := congrArg _ (if_pos h)

theorem exec_memr_of_invalid {s : State} {a : Word} {n : AccessSize} (h : s.hostValid a n = false) :
    exec (.memr a n) s = .next (s.refuse .badHostMemory) := congrArg _ (if_pos h)

theorem exec_memw_of_race {s : State} {a : Word} {n : AccessSize} (v : Word) (h : s.hostValid a n = true)
    (hrace : s.dma.busy = true ∧ s.hostTouchesTransfer a n = true) :
    exec (.memw a n v) s = .next (s.raise .bufferRace) :=
  congrArg _ ((if_neg (by simp [h])).trans (if_pos hrace))

theorem exec_memw_of_free {s : State} {a : Word} {n : AccessSize} (v : Word) (h : s.hostValid a n = true)
    (hfree : ¬(s.dma.busy = true ∧ s.hostTouchesTransfer a n = true)) :
    exec (.memw a n v) s = .next { s with mem := s.mem.writeLE a v (sizeBytes n) } :=
  congrArg _ ((if_neg (by simp [h])).trans (if_neg hfree))

theorem exec_memr_of_race {s : State} {a : Word} {n : AccessSize} (h : s.hostValid a n = true)
    (hrace : s.rxOwned = true ∧ s.hostTouchesTransfer a n = true) :
    exec (.memr a n) s = .next (s.raise .bufferRace) :=
  congrArg _ ((if_neg (by simp [h])).trans (if_pos hrace))

theorem exec_memr_of_free {s : State} {a : Word} {n : AccessSize} (h : s.hostValid a n = true)
    (hfree : ¬(s.rxOwned = true ∧ s.hostTouchesTransfer a n = true)) :
    exec (.memr a n) s = .next (s.hostReturn (s.mem.readLE a (sizeBytes n))) :=
  congrArg _ ((if_neg (by simp [h])).trans (if_neg hfree))

/-- Settles O50: the checks of R131 and R90 are statements about the bytes of the access; past them the bytes are
written or read. -/
theorem hostMemoryOperations : Obligations.HostMemoryOperations := by
  intro s a n v byte valid raced
  have hsize := sizeBytes_le n
  have hbyte : ∀ i, byteAddr a i = byte i := byteAddr_eq a
  have hvalid : s.hostValid a n = true ↔ valid := s.hostValid_iff a n
  have hraced : s.hostTouchesTransfer a n = true ↔ raced := s.hostTouchesTransfer_iff a n
  have hwrite : s.dma.busy = true ∧ s.hostTouchesTransfer a n = true ↔ s.dma.busy = true ∧ raced :=
    and_congr_right' hraced
  have hread : s.rxOwned = true ∧ s.hostTouchesTransfer a n = true ↔
      s.dma.busy = true ∧ s.dma.qsel = .rx ∧ raced := by rw [s.rxOwned_iff, hraced, and_assoc]
  refine ⟨fun hinvalid => ?_, fun hok => ⟨fun hrace => ?_, fun hrace => ?_, fun hfree => ?_, fun hfree => ?_⟩,
    fun _ => rfl⟩
  · have hno : s.hostValid a n = false := Bool.eq_false_iff.2 (hvalid.not.2 hinvalid)
    exact ⟨exec_memw_of_invalid v hno, exec_memr_of_invalid hno⟩
  · exact exec_memw_of_race v (hvalid.2 hok) (hwrite.2 hrace)
  · exact exec_memr_of_race (hvalid.2 hok) (hread.2 hrace)
  · refine ⟨_, exec_memw_of_free v (hvalid.2 hok) (hwrite.not.2 hfree), fun i hi => ?_, fun b hb => ?_⟩
    · rw [← hbyte]
      exact Memory.read_writeLE_at s.mem a v (by omega) hi
    · exact Memory.read_writeLE_of_ne s.mem a v fun i hi => (hbyte i).symm ▸ hb i hi
  · refine ⟨_, exec_memr_of_free (hvalid.2 hok) (hread.not.2 hfree), fun i hi => ?_, Memory.readLE_lt s.mem a hsize⟩
    rw [← hbyte]
    exact Memory.slice_readLE s.mem a hsize hi

end Sys2Proof.Machine
end

section
/-! SUPPORT. 41_config and the reads of 41_config and 42_engines (R151 to R167, R183 to R186): an encoding row as a
register and its DATA, a read as its register's word, and the bus configuration's operations as equations; with them the
statements ConfigRegistersStoreUntilInit, InitConfiguresAndDrivesThePins, PinConflictIsAnIndexOutOfRangeOrShared,
LimitsAreTheFormulas, CfgCtrlNopHasNoEffect, PinctlDrivesChangedLines and ConfigAndEngineReadsReturnTheirRegister. -/

namespace Sys2Proof.Machine

open Sys2Proof.Laws

/-! ## Encodings and reads, from the register's own form (R111, R114) -/

/-- A row with the direction and offset of a write of `r` encodes what `r` makes of the DATA that has the row's other
fixed bits. -/
theorem encodes_of_register (r : Reg) {m k : AccessWord} {f : Word → Instr}
    (hm : m &&& 0xFFFF00000000#48 = writeWord r 0#32) (hk : k &&& 0xFFFF00000000#48 = 0xFFFF00000000#48)
    (hf : ∀ d, d &&& slice k 0 32 = slice m 0 32 → decodeWrite r d = .ok (f d)) : Encodes m k f := by
  intro w hw
  obtain ⟨hdecode, hdata⟩ := decode_of_mask r hw hm hk
  exact hdecode.trans (hf _ hdata)

/-- A CFG_CTRL row fixes bit 0 of DATA, which selects the form (R112). -/
theorem encodes_cfgCtrl {m : AccessWord} (b : Bool) (hm : m &&& 0xFFFF00000000#48 = writeWord .cfgCtrl 0#32)
    (hb : bitAt m 0 = b) : Encodes m 0xFFFF00000001#48 fun _ => if b then .wCfgCtrlInit else .wCfgCtrlNop := by
  refine encodes_of_register .cfgCtrl hm (by decide) fun d hd => ?_
  have hbit : bitAt d 0 = b := (bit_of_mask hd 0 (by decide)).trans (by simpa [bitAt, slice] using hb)
  rw [decodeWrite_cfgCtrl, hbit]

/-- A register's read whose meaning returns the word `v` and nothing else. -/
theorem readsAs_of_register (r : Reg) {w : AccessWord} {i : Instr} {value : State → Nat} (v : State → Word)
    (hw : w = readWord r) (hdecode : decodeRead r = .ok i)
    (hexec : ∀ s, exec i s = .next (s.hostReturn (v s))) (hv : ∀ s, (v s).toNat = value s) : ReadsAs w i value := by
  subst hw
  exact ⟨(decode_readWord r).trans hdecode, fun s => ⟨v s, hv s, hexec s⟩⟩

/-! ## The configuration registers (R151, R156, R160, R162) -/

theorem State.configWrite_of_configured {s : State} (h : s.cfg.configured = true) (c : Cfg) :
    s.configWrite c = s.raise .configLocked := if_pos h

theorem State.configWrite_of_unconfigured {s : State} (h : s.cfg.configured = false) (c : Cfg) :
    s.configWrite c = { s with cfg := c } := if_neg (by simp [h])

/-- Settles O10: each of the four writes is a configuration write of the register put together again from its fields. -/
theorem configRegistersStoreUntilInit : Obligations.ConfigRegistersStoreUntilInit := by
  refine ⟨?pins, ?pins2, ?wclk, ?rclk, ?unconfigured, ?configured⟩
  case pins => exact encodes_of_register .cfgPins (by decide) (by decide) fun _ _ => rfl
  case pins2 => exact encodes_of_register .cfgPins2 (by decide) (by decide) fun _ _ => rfl
  case wclk => exact encodes_of_register .cfgWclk (by decide) (by decide) fun _ _ => rfl
  case rclk => exact encodes_of_register .cfgRclk (by decide) (by decide) fun _ _ => rfl
  case unconfigured =>
    intro s d hun
    have hstore : ∀ c, s.configWrite c = { s with cfg := c } := State.configWrite_of_unconfigured hun
    refine ⟨?_, ?_, congrArg _ (hstore _), congrArg _ (hstore _)⟩
    · have hmeaning : exec (.wCfgPins (slice d 0 8) (slice d 8 8) (slice d 16 8) (slice d 24 8)) s =
          .next (s.configWrite { s.cfg with
            pins := slice d 24 8 ++ slice d 16 8 ++ slice d 8 8 ++ slice d 0 8 }) := rfl
      rw [hmeaning, append_bytes4, hstore]
    · have hmeaning : exec (.wCfgPins2 (slice d 0 8) (slice d 8 8)) s =
          .next (s.configWrite { s.cfg with pins2 := slice d 8 8 ++ slice d 0 8 }) := rfl
      rw [hmeaning, append_bytes2, hstore]
  case configured =>
    intro s d a b c e hconf i hi
    have hlocked : ∀ c, s.configWrite c = s.raise .configLocked := State.configWrite_of_configured hconf
    simp only [List.mem_cons, List.not_mem_nil, or_false] at hi
    rcases hi with rfl | rfl | rfl | rfl <;> exact congrArg _ (hlocked _)

/-! ## INIT (R153, R154, R155) -/

/-- PIN_BL = 0xFF says that there is no backlight line (R34). -/
theorem ite_hasBl {α : Type} (c : Cfg) (a b : α) : (if hasBl c then a else b) = if pinBl c = 0xFF#8 then b else a := by
  by_cases h : pinBl c = 0xFF#8 <;> simp [hasBl, h]

theorem hasBl_iff (c : Cfg) : hasBl c = true ↔ pinBl c ≠ 0xFF#8 := by simp [hasBl]

theorem exec_init_of_configured {s : State} (h : s.cfg.configured = true) :
    exec .wCfgCtrlInit s = .next (s.raise .reInit) := congrArg _ (if_pos h)

theorem exec_init_of_clockZero {s : State} (hun : s.cfg.configured = false)
    (h : s.cfg.wclk = 0#32 ∨ s.cfg.rclk = 0#32) : exec .wCfgCtrlInit s = .next (s.raise .clockZero) :=
  congrArg _ ((if_neg (by simp [hun])).trans (if_pos h))

theorem exec_init_of_clocks {s : State} (hun : s.cfg.configured = false) (hw : s.cfg.wclk ≠ 0#32)
    (hr : s.cfg.rclk ≠ 0#32) :
    exec .wCfgCtrlInit s =
      .next (if pinConflict s.params s.cfg then s.reportCfg .pinConflict else s.initialised) :=
  congrArg _ ((if_neg (by simp [hun])).trans (if_neg (not_or.2 ⟨hw, hr⟩)))

/-- Settles O11: the checks in their order, then the effect of a successful INIT with the backlight line told by
PIN_BL. -/
theorem initConfiguresAndDrivesThePins : Obligations.InitConfiguresAndDrivesThePins := by
  refine ⟨?encodes, fun s => ⟨exec_init_of_configured, fun hun => ⟨exec_init_of_clockZero hun, fun hw hr =>
    ⟨fun hconflict => ?conflict, fun hfree => ?free⟩⟩⟩⟩
  case encodes => exact encodes_cfgCtrl true (by decide) (by decide)
  case conflict =>
    rw [exec_init_of_clocks hun hw hr, if_pos hconflict]
    rfl
  case free =>
    rw [exec_init_of_clocks hun hw hr, if_neg (by simp [hfree])]
    simp only [← ite_hasBl]
    rfl

/-- The two reasons for a conflict, over the list L (R154). -/
theorem pinConflict_iff (p : Params) (c : Cfg) :
    pinConflict p c = true ↔ (∃ i ∈ pinList c, p.nPins ≤ i) ∨ ¬(pinList c).Nodup := by
  simp [pinConflict, hasRepeat_iff]

/-- The list L written out (R154). -/
theorem pinList_eq (c : Cfg) :
    pinList c =
      let base := (pinDataBase c).toNat
      [base, base + 1, base + 2, base + 3, base + 4, base + 5, base + 6, base + 7, (pinDc c).toNat, (pinWr c).toNat,
        (pinRd c).toNat, (pinRst c).toNat] ++ if (pinBl c).toNat = 0xFF then [] else [(pinBl c).toNat] := by
  have hbl : (pinBl c).toNat = 0xFF ↔ pinBl c = 0xFF#8 := BitVec.toNat_inj (y := 0xFF#8)
  simp only [hbl, ← ite_hasBl]
  rfl

/-- Settles O12: the model's two checks of the list L. -/
theorem pinConflictIsAnIndexOutOfRangeOrShared : Obligations.PinConflictIsAnIndexOutOfRangeOrShared := by
  intro p c base bl l
  have hl : pinList c = l := pinList_eq c
  rw [← hl]
  exact pinConflict_iff p c

theorem saturateLimit_toNat (q : Nat) : (saturateLimit q).toNat = min (2 ^ 32 - 1) (max 1 q) := by
  rw [saturateLimit, BitVec.toNat_ofNat]
  omega

/-- Settles O13: a saturated quotient fits its register, and the two examples are quotients of literals. -/
theorem limitsAreTheFormulas : Obligations.LimitsAreTheFormulas := by
  refine ⟨fun p c => ⟨saturateLimit_toNat _, saturateLimit_toNat _⟩, fun p c => ⟨?values, ?floor⟩⟩
  case values =>
    intro hfill hbpp hclk
    rw [txLimitOf, hfill, hbpp, hclk]
    decide
  case floor =>
    intro hunit hclk
    rw [txLimitOf, Nat.mul_assoc, hunit, hclk]
    decide

/-- Settles O14: bit 0 of DATA is fixed at 0, and the form without INIT has no meaning but the next state. -/
theorem cfgCtrlNopHasNoEffect : Obligations.CfgCtrlNopHasNoEffect :=
  ⟨encodes_cfgCtrl false (by decide) (by decide), fun _ => rfl⟩

/-! ## PINCTL (R158) -/

theorem State.driveRst_eq (s : State) (old new : Bool) :
    s.driveRst old new =
      { s with
        pins.rst := if s.pins.driven = true ∧ new ≠ old then new else s.pins.rst
        trace := s.trace ++ if s.pins.driven = true ∧ new ≠ old then [.rst new] else [] } := by
  rcases s.driveRst_cases old new with ⟨hdriven, hnew, hdrive⟩ | ⟨hstay, hsame⟩
  · simp [hdrive, hdriven, hnew]
  · have hno : ¬(s.pins.driven = true ∧ new ≠ old) := by rcases hstay with h | h <;> simp [h]
    simp [hsame, hno]

theorem State.driveBl_eq (s : State) (old new : Bool) :
    s.driveBl old new =
      { s with
        pins.bl := if s.pins.driven = true ∧ pinBl s.cfg ≠ 0xFF#8 ∧ new ≠ old then new else s.pins.bl
        trace :=
          s.trace ++ if s.pins.driven = true ∧ pinBl s.cfg ≠ 0xFF#8 ∧ new ≠ old then [.bl new] else [] } := by
  simp only [← hasBl_iff]
  rcases s.driveBl_cases old new with ⟨hdriven, hhas, hnew, hdrive⟩ | ⟨hstay, hsame⟩
  · simp [hdrive, hdriven, hhas, hnew]
  · have hno : ¬(s.pins.driven = true ∧ hasBl s.cfg = true ∧ new ≠ old) := by
      rcases hstay with h | h | h <;> simp [h]
    simp [hsame, hno]

/-- Settles O15: PINCTL is stored, then each line follows its level by its own equation, RST before BL. -/
theorem pinctlDrivesChangedLines : Obligations.PinctlDrivesChangedLines := by
  refine ⟨encodes_of_register .pinctl (by decide) (by decide) fun _ _ => rfl, fun s rst bl => ?_⟩
  have hmeaning : exec (.wPinctl rst bl) s =
      .next ((({ s with pinctl := ⟨rst, bl⟩ } : State).driveRst s.pinctl.rst rst).driveBl s.pinctl.bl bl) := rfl
  rw [hmeaning, State.driveRst_eq, State.driveBl_eq]

/-! ## The words the reads return (R157, R159, R164, R183 to R186) -/

/-- Reserved bits that read 0 leave the value alone (R113). -/
theorem zero_append_toNat (v : Nat) {w : Nat} (x : BitVec w) : (0#v ++ x).toNat = x.toNat := by
  rw [append_toNat, BitVec.toNat_zero, Nat.zero_mul, Nat.zero_add]

theorem State.cfgPins2Word_toNat (s : State) : s.cfgPins2Word.toNat = s.cfg.pins2.toNat :=
  zero_append_toNat 16 s.cfg.pins2

theorem State.cfgStatusWord_toNat (s : State) :
    s.cfgStatusWord.toNat = errNumber s.cfg.err * 2 ^ 8 + s.cfg.configured.toNat := by
  simp only [State.cfgStatusWord, append_toNat, errByte_toNat, BitVec.toNat_ofBool, BitVec.toNat_ofNat]
  omega

theorem State.pinctlWord_toNat (s : State) :
    s.pinctlWord.toNat = s.pinctl.bl.toNat * 2 + s.pinctl.rst.toNat := by
  simp only [State.pinctlWord, append_toNat, BitVec.toNat_ofBool, BitVec.toNat_ofNat]
  omega

theorem State.engEnableWord_toNat (s : State) : s.engEnableWord.toNat = s.eng.enable.toNat :=
  zero_append_toNat 28 s.eng.enable

/-- An engine without phases is idle when its queue is empty, the CDR when it is in phase COUNT besides (R42). -/
theorem State.idle_eq (s : State) :
    s.idle .cw = decide (s.eng.txqCw.length = 0) ∧ s.idle .dwb = decide (s.eng.txqDwb.length = 0) ∧
      s.idle .dwt = decide (s.eng.txqDwt.length = 0) ∧
      s.idle .cdr = decide (s.eng.txqCdr.length = 0 ∧ s.eng.phase = .count) := by
  have hempty : ∀ q : List Word, q.isEmpty = decide (q.length = 0) := fun q => by cases q <;> rfl
  simp only [State.idle, hempty, Bool.decide_and, and_self]

theorem State.engIdleWord_toNat (s : State) :
    s.engIdleWord.toNat =
      (if s.eng.txqCw.length = 0 then 1 else 0) + (if s.eng.txqDwb.length = 0 then 2 else 0) +
        (if s.eng.txqDwt.length = 0 then 4 else 0) +
          if s.eng.txqCdr.length = 0 ∧ s.eng.phase = .count then 8 else 0 := by
  obtain ⟨hcw, hdwb, hdwt, hcdr⟩ := s.idle_eq
  have hweight : ∀ (p : Prop) [Decidable p] (n : Nat), (if p then n else 0) = (decide p).toNat * n := fun p _ n => by
    by_cases h : p <;> simp [h]
  simp only [State.engIdleWord, append_toNat, hcw, hdwb, hdwt, hcdr, hweight, BitVec.toNat_ofBool, BitVec.toNat_ofNat]
  omega

/-- A queue within a capacity that R10 admits has a length that its 8-bit field holds (R43). -/
theorem Params.length_lt_of_ok {p : Params} (hok : p.ok = true) {n : Nat} (h : n ≤ p.qDepth) : n < 2 ^ 8 := by
  have hdepth : p.qDepth ≤ 255 := by
    simp only [Params.ok, Bool.and_eq_true, decide_eq_true_eq] at hok
    obtain ⟨⟨-, hle⟩, -⟩ := hok
    exact hle
  omega

theorem State.txLevelWord_toNat {s : State} (hok : s.params.ok = true) (h : QueueInv s) :
    s.txLevelWord.toNat =
      s.eng.txqCw.length + s.eng.txqDwb.length * 2 ^ 8 + s.eng.txqDwt.length * 2 ^ 16
        + s.eng.txqCdr.length * 2 ^ 24 := by
  have hcw := Params.length_lt_of_ok hok h.cw
  have hdwb := Params.length_lt_of_ok hok h.dwb
  have hdwt := Params.length_lt_of_ok hok h.dwt
  have hcdr := Params.length_lt_of_ok hok h.cdr
  simp only [State.txLevelWord, append_toNat, BitVec.toNat_ofNat, Nat.mod_eq_of_lt hcw, Nat.mod_eq_of_lt hdwb,
    Nat.mod_eq_of_lt hdwt, Nat.mod_eq_of_lt hcdr]
  omega

theorem State.rxLevelWord_toNat {s : State} (hok : s.params.ok = true) (h : QueueInv s) :
    s.rxLevelWord.toNat = s.eng.rxq.length := by
  rw [State.rxLevelWord, zero_append_toNat 24, BitVec.toNat_ofNat, Nat.mod_eq_of_lt (Params.length_lt_of_ok hok h.rx)]

/-- Settles O16: each read returns its register's word, whose value is its fields at their places. -/
theorem configAndEngineReadsReturnTheirRegister : Obligations.ConfigAndEngineReadsReturnTheirRegister := by
  refine ⟨?pins, ?pins2, ?wclk, ?rclk, ?status, ?tx, ?rx, ?pinctl, ?enable, ?idle, ?txLevel, ?rxLevel, ?levels⟩
  case pins => exact readsAs_of_register .cfgPins (·.cfg.pins) rfl rfl (fun _ => rfl) fun _ => rfl
  case pins2 =>
    exact readsAs_of_register .cfgPins2 State.cfgPins2Word rfl rfl (fun _ => rfl) State.cfgPins2Word_toNat
  case wclk => exact readsAs_of_register .cfgWclk (·.cfg.wclk) rfl rfl (fun _ => rfl) fun _ => rfl
  case rclk => exact readsAs_of_register .cfgRclk (·.cfg.rclk) rfl rfl (fun _ => rfl) fun _ => rfl
  case status =>
    exact readsAs_of_register .cfgStatus State.cfgStatusWord rfl rfl (fun _ => rfl) State.cfgStatusWord_toNat
  case tx => exact readsAs_of_register .txLimit (·.cfg.txLimit) rfl rfl (fun _ => rfl) fun _ => rfl
  case rx => exact readsAs_of_register .rxLimit (·.cfg.rxLimit) rfl rfl (fun _ => rfl) fun _ => rfl
  case pinctl => exact readsAs_of_register .pinctl State.pinctlWord rfl rfl (fun _ => rfl) State.pinctlWord_toNat
  case enable =>
    exact readsAs_of_register .engEnable State.engEnableWord rfl rfl (fun _ => rfl) State.engEnableWord_toNat
  case idle => exact readsAs_of_register .engIdle State.engIdleWord rfl rfl (fun _ => rfl) State.engIdleWord_toNat
  case txLevel => exact decode_readWord .txLevel
  case rxLevel => exact decode_readWord .rxLevel
  case levels =>
    intro s hok hqueues
    exact ⟨⟨s.txLevelWord, State.txLevelWord_toNat hok hqueues, rfl⟩,
      ⟨s.rxLevelWord, State.rxLevelWord_toNat hok hqueues, rfl⟩⟩

end Sys2Proof.Machine
end

section
/-! SUPPORT. The host accesses that enable, clear, feed and drain the engines (42_engines R181, R187 to R189, R199 to R202):
their guards as statements about the state, and an equation for each outcome; with them the statements
EnableKeepsOneEngineActive, ClearEmptiesSelectedQueues, PushesEnterTheirQueue and PopReturnsTheOldestByte. -/

namespace Sys2Proof.Machine

open Sys2Proof.Laws

/-! ## Who feeds a queue (R187 to R189) -/

theorem State.txOwned_iff (s : State) (e : Engine) :
    s.txOwned e = true ↔ (s.dma.busy = true ∧ s.dma.qsel = .tx e) ∨ (e = .cw ∧ s.win.pending ≠ []) := by
  simp [State.txOwned, State.winBusy]

/-- The feeder of the CDR is busy while the DMA fills its queue or drains RXQ (R187). -/
theorem State.feederBusy_iff (s : State) (e : Engine) :
    s.feederBusy e = true ↔
      (s.dma.busy = true ∧ (s.dma.qsel = .tx e ∨ (e = .cdr ∧ s.dma.qsel = .rx))) ∨ (e = .cw ∧ s.win.pending ≠ []) := by
  rw [State.feederBusy, Bool.or_eq_true, s.txOwned_iff, Bool.and_eq_true, decide_eq_true_eq, s.rxOwned_iff]
  tauto

/-! ## ENG_ENABLE (R181, R199) -/

theorem exec_enable_of_unconfigured {s : State} {en : BitVec 4} (hen : en ≠ 0#4) (hun : s.cfg.configured = false) :
    exec (.wEngEnable en) s = .next (s.raise .notConfigured) := congrArg _ (if_pos ⟨hen, hun⟩)

section Admitted

variable {s : State} {en : BitVec 4} (hconf : en = 0#4 ∨ s.cfg.configured = true)
include hconf

/-- Past the first check of R181. -/
theorem exec_enable_of_configured :
    exec (.wEngEnable en) s = .next
      (if 1 < popcount4 en then s.raise .busContention
       else if s.eng.enable ≠ 0#4 ∧ en ≠ 0#4 ∧ en ≠ s.eng.enable then s.raise .busContention
       else (if s.eng.enable = 8#4 ∧ en ≠ 8#4 then s.cdrTerminate else s).setEnable en) := by
  have hpass : ¬(en ≠ 0#4 ∧ s.cfg.configured = false) := by
    rcases hconf with h | h <;> simp [h]
  exact congrArg _ (if_neg hpass)

theorem exec_enable_of_many (hmany : en ∉ [0#4, 1#4, 2#4, 4#4, 8#4]) :
    exec (.wEngEnable en) s = .next (s.raise .busContention) := by
  rw [exec_enable_of_configured hconf, if_pos ((popcount4_iff en).2 hmany)]

/-- A set of at most one bit is compared with the stored set (R181). -/
theorem exec_enable_of_one (hone : en ∈ [0#4, 1#4, 2#4, 4#4, 8#4]) :
    exec (.wEngEnable en) s = .next
      (if s.eng.enable ≠ 0#4 ∧ en ≠ 0#4 ∧ en ≠ s.eng.enable then s.raise .busContention
       else (if s.eng.enable = 8#4 ∧ en ≠ 8#4 then s.cdrTerminate else s).setEnable en) := by
  rw [exec_enable_of_configured hconf, if_neg ((popcount4_iff en).not.2 (not_not.2 hone))]

theorem exec_enable_of_switch (hone : en ∈ [0#4, 1#4, 2#4, 4#4, 8#4])
    (hswitch : s.eng.enable ≠ 0#4 ∧ en ≠ 0#4 ∧ en ≠ s.eng.enable) :
    exec (.wEngEnable en) s = .next (s.raise .busContention) := by
  rw [exec_enable_of_one hconf hone, if_pos hswitch]

/-- A set that R181 accepts is stored; the CDR is terminated first where it loses its bit (R199). -/
theorem exec_enable_of_accepted (hone : en ∈ [0#4, 1#4, 2#4, 4#4, 8#4])
    (hkeep : s.eng.enable = 0#4 ∨ en = 0#4 ∨ en = s.eng.enable) :
    exec (.wEngEnable en) s = .next
      ((if s.eng.enable = 8#4 ∧ en ≠ 8#4 then s.cdrTerminate else s).setEnable en) := by
  have hno : ¬(s.eng.enable ≠ 0#4 ∧ en ≠ 0#4 ∧ en ≠ s.eng.enable) := by tauto
  rw [exec_enable_of_one hconf hone, if_neg hno]

end Admitted

/-- Early termination by the phase that the write interrupts (R199). -/
theorem State.cdrTerminate_of_count {s : State} (h : s.eng.phase = .count) : s.cdrTerminate = s := by
  simp only [State.cdrTerminate, h]

theorem State.cdrTerminate_of_cmd {s : State} {n : BitVec 16} (h : s.eng.phase = .cmd n) :
    s.cdrTerminate = s.setPhase .count := by
  simp only [State.cdrTerminate, h]

theorem State.cdrTerminate_of_read {s : State} {k : BitVec 16} {f : Bool} (h : s.eng.phase = .read k f) :
    s.cdrTerminate = s.dirOut.setPhase .count := by
  simp only [State.cdrTerminate, h]

/-- Settles O19: the checks in their order, then the stored set with the CDR's termination by its phase. -/
theorem enableKeepsOneEngineActive : Obligations.EnableKeepsOneEngineActive := by
  refine ⟨encodes_of_register .engEnable (by decide) (by decide) fun _ _ => rfl, fun s en =>
    ⟨exec_enable_of_unconfigured, fun hconf => ⟨exec_enable_of_many hconf, fun hone =>
      ⟨fun hold hen hne => exec_enable_of_switch hconf hone ⟨hold, hen, hne⟩, fun hkeep => ?_⟩⟩⟩⟩
  rw [exec_enable_of_accepted hconf hone hkeep]
  refine ⟨fun hstay => ?stay, fun hcdr hen n hphase => ?cmd, fun hcdr hen k f hphase => ?read⟩
  case stay =>
    have hsame : (if s.eng.enable = 8#4 ∧ en ≠ 8#4 then s.cdrTerminate else s) = s := by
      rcases hstay with hcdr | hen | hphase
      · exact if_neg fun h => hcdr h.1
      · exact if_neg fun h => h.2 hen
      · rw [State.cdrTerminate_of_count hphase, ite_self]
    rw [hsame]
    rfl
  case cmd =>
    rw [if_pos ⟨hcdr, hen⟩, State.cdrTerminate_of_cmd hphase]
    rfl
  case read =>
    rw [if_pos ⟨hcdr, hen⟩, State.cdrTerminate_of_read hphase]
    rfl

/-! ## ENG_CLEAR (R187) -/

/-- A check on the selected engines, as a statement about the write's bits. -/
theorem selected_any_iff (sel : BitVec 4) (p : Engine → Bool) :
    (selected sel).any p = true ↔ ∃ e, bitAt sel (engineIndex e) = true ∧ p e = true := by
  have hmem : ∀ e, e ∈ selected sel ↔ bitAt sel (engineIndex e) = true := by
    intro e
    have hall : e ∈ engines := by cases e <;> decide
    simp [selected, hall]
  simp only [List.any_eq_true, hmem]

theorem exec_clear_of_active {s : State} {sel : BitVec 4} (h : (selected sel).any s.active = true) :
    exec (.wEngClear sel) s = .next (s.raise .clearActive) := congrArg _ (if_pos h)

theorem exec_clear_of_busy {s : State} {sel : BitVec 4} (hinactive : ¬(selected sel).any s.active = true)
    (h : (selected sel).any s.feederBusy = true) :
    exec (.wEngClear sel) s = .next (s.raise .queueConflict) :=
  congrArg _ ((if_neg hinactive).trans (if_pos h))

theorem exec_clear_of_free {s : State} {sel : BitVec 4} (hinactive : ¬(selected sel).any s.active = true)
    (hfree : ¬(selected sel).any s.feederBusy = true) :
    exec (.wEngClear sel) s = .next ((selected sel).foldl State.clearEngine s) :=
  congrArg _ ((if_neg hinactive).trans (if_neg hfree))

/-- Settles O20: the two checks over the selected engines, then `State.clear_eq`. -/
theorem clearEmptiesSelectedQueues : Obligations.ClearEmptiesSelectedQueues := by
  refine ⟨encodes_of_register .engClear (by decide) (by decide) fun _ _ => rfl, fun s sel => ?_⟩
  intro busy
  have hactive : (selected sel).any s.active = true ↔
      ∃ e, bitAt sel (engineIndex e) = true ∧ bitAt s.eng.enable (engineIndex e) = true := selected_any_iff sel s.active
  have hbusy : (selected sel).any s.feederBusy = true ↔ ∃ e, bitAt sel (engineIndex e) = true ∧ busy e :=
    (selected_any_iff sel s.feederBusy).trans (exists_congr fun e => and_congr_right' (s.feederBusy_iff e))
  refine ⟨fun h => exec_clear_of_active (hactive.2 h), fun hnone => ?_⟩
  have hinactive : ¬(selected sel).any s.active = true := by
    rintro hany
    obtain ⟨e, hsel, hen⟩ := hactive.1 hany
    simp [hnone e hsel] at hen
  refine ⟨fun h => exec_clear_of_busy hinactive (hbusy.2 h), fun hidle => ?_⟩
  have hfree : ¬(selected sel).any s.feederBusy = true := by
    intro hany
    obtain ⟨e, hsel, he⟩ := hbusy.1 hany
    exact hidle e hsel he
  rw [exec_clear_of_free hinactive hfree, State.clear_eq]

/-! ## The queues at the host's end (R188, R189, R200 to R202) -/

/-- The four pushes are one operation, each on its own queue. -/
theorem exec_push {p : Engine × (Word → Instr)}
    (hp : p ∈ [(Engine.cw, Instr.wTxqCw), (.dwb, .wTxqDwb), (.dwt, .wTxqDwt), (.cdr, .wTxqCdr)]) (s : State) (w : Word) :
    exec (p.2 w) s = .next (s.hostPush p.1 w) := by
  simp only [List.mem_cons, List.not_mem_nil, or_false] at hp
  rcases hp with rfl | rfl | rfl | rfl <;> rfl

/-- Settles O21: the three outcomes of a host push, their guards read as the statement's. -/
theorem pushesEnterTheirQueue : Obligations.PushesEnterTheirQueue := by
  refine ⟨?cw, ?dwb, ?dwt, ?cdr, fun p hp s w => ?push⟩
  case cw => exact encodes_of_register .txqCw (by decide) (by decide) fun _ _ => rfl
  case dwb => exact encodes_of_register .txqDwb (by decide) (by decide) fun _ _ => rfl
  case dwt => exact encodes_of_register .txqDwt (by decide) (by decide) fun _ _ => rfl
  case cdr => exact encodes_of_register .txqCdr (by decide) (by decide) fun _ _ => rfl
  case push =>
    intro owned
    have howned : s.txOwned p.1 = true ↔ owned := s.txOwned_iff p.1
    have hother : s.txOwned p.1 = false → ¬owned := fun htx => howned.not.1 (Bool.eq_false_iff.1 htx)
    rw [exec_push hp]
    rcases s.hostPush_cases p.1 w with ⟨htx, hpush⟩ | ⟨htx, hfull, hpush⟩ | ⟨htx, hroom, hpush⟩
    · have hown : owned := howned.1 htx
      exact ⟨fun _ => congrArg _ hpush, fun hfree => absurd hown hfree, fun hfree => absurd hown hfree⟩
    · exact ⟨fun hown => absurd hown (hother htx), fun _ _ => congrArg _ hpush,
        fun _ hroom => absurd hfull (Nat.not_le.2 hroom)⟩
    · exact ⟨fun hown => absurd hown (hother htx), fun _ hfull => absurd hroom (Nat.not_lt.2 hfull),
        fun _ _ => congrArg _ hpush⟩

theorem exec_pop_of_owned {s : State} (h : s.rxOwned = true) :
    exec .rRxqCdr s = .next (s.raise .queueConflict) := congrArg _ (if_pos h)

theorem exec_pop_of_empty {s : State} (hfree : ¬s.rxOwned = true) (hempty : s.eng.rxq = []) :
    exec .rRxqCdr s = .next (s.hold .popEmpty) := by
  refine congrArg _ ((if_neg hfree).trans ?_)
  rw [hempty]

theorem exec_pop_of_cons {s : State} {b : Byte} {rest : List Byte} (hfree : ¬s.rxOwned = true)
    (hrxq : s.eng.rxq = b :: rest) : exec .rRxqCdr s = .next (s.popRx.hostReturn (b.zeroExtend 32)) := by
  refine congrArg _ ((if_neg hfree).trans ?_)
  rw [hrxq]

/-- Settles O22: the pop by its owner, then by what RXQ holds. -/
theorem popReturnsTheOldestByte : Obligations.PopReturnsTheOldestByte := by
  refine ⟨decode_readWord .rxqCdr, fun s => ⟨fun hbusy hrx => ?_, fun hnone => ?_⟩⟩
  · exact exec_pop_of_owned (s.rxOwned_iff.2 ⟨hbusy, hrx⟩)
  · have hfree : ¬s.rxOwned = true := s.rxOwned_iff.not.2 hnone
    refine ⟨exec_pop_of_empty hfree, fun b rest hrxq => ?_⟩
    have hpop : s.popRx = { s with eng.rxq := rest } := by rw [State.popRx, hrxq, List.tail_cons]
    rw [exec_pop_of_cons hfree hrxq, hpop]
    rfl

end Sys2Proof.Machine
end

section
/-! SUPPORT. The units of the engines (42_engines R190 to R198): each unit's meaning where its engine's step is enabled, as
the operations of Machine/Ops, and the CDR's read transaction as the run of its steps; with them the statements
WriteUnitsBecomeWriteCycles, CdrUnitsRunTheReadTransaction, CdrRestoresTheDataLane and ReadTransactionTrace. -/

namespace Sys2Proof.Machine

/-! ## The meaning of each unit (R192 to R197) -/

/-- The enabling condition of the steps that pull a unit. -/
theorem State.unit_ready {s : State} {e : Engine} {w : Word} {rest : List Word} (hactive : s.active e = true)
    (hqueue : s.txq e = w :: rest) : (s.active e && !(s.txq e).isEmpty) = true := by
  simp [hactive, hqueue]

theorem State.popTx_of_cons {s : State} {e : Engine} {w : Word} {rest : List Word} (hqueue : s.txq e = w :: rest) :
    s.popTx e = s.setTxq e rest := by
  rw [State.popTx, hqueue, List.tail_cons]

section Units

variable {s : State} {w : Word} {rest : List Word}

theorem exec_qunitCw (hactive : s.active .cw = true) (hqueue : s.txq .cw = w :: rest) (dc : Bool) (d : Byte) :
    exec (.qunitCw dc d) s = .next ((s.setTxq .cw rest).wcycle dc d) := by
  rw [← State.popTx_of_cons hqueue]
  exact congrArg _ (if_pos (State.unit_ready hactive hqueue))

theorem exec_qunitDwb (hactive : s.active .dwb = true) (hqueue : s.txq .dwb = w :: rest) (d : Byte) :
    exec (.qunitDwb d) s = .next ((s.setTxq .dwb rest).wcycle true d) := by
  rw [← State.popTx_of_cons hqueue]
  exact congrArg _ (if_pos (State.unit_ready hactive hqueue))

theorem exec_qunitDwt (hactive : s.active .dwt = true) (hqueue : s.txq .dwt = w :: rest) (a b c : Byte) :
    exec (.qunitDwt a b c) s = .next ((((s.setTxq .dwt rest).wcycle true a).wcycle true b).wcycle true c) := by
  rw [← State.popTx_of_cons hqueue]
  exact congrArg _ (if_pos (State.unit_ready hactive hqueue))

theorem exec_qunitCdrCount (hactive : s.active .cdr = true) (hqueue : s.txq .cdr = w :: rest)
    (hphase : s.eng.phase = .count) (n : BitVec 16) :
    exec (.qunitCdrCount n) s = .next ((s.setTxq .cdr rest).setPhase (.cmd n)) := by
  rw [← State.popTx_of_cons hqueue]
  refine congrArg _ ((if_pos (State.unit_ready hactive hqueue)).trans ?_)
  rw [hphase]

theorem exec_qunitCdrCmd {n : BitVec 16} (hactive : s.active .cdr = true) (hqueue : s.txq .cdr = w :: rest)
    (hphase : s.eng.phase = .cmd n) (d : Byte) :
    exec (.qunitCdrCmd d) s = .next ((((s.setTxq .cdr rest).wcycle false d).dirIn).setPhase (.read n true)) := by
  rw [← State.popTx_of_cons hqueue]
  refine congrArg _ ((if_pos (State.unit_ready hactive hqueue)).trans ?_)
  rw [hphase]

end Units

theorem State.readEnabled_of_read {s : State} {k : BitVec 16} {first : Bool} (hactive : s.active .cdr = true)
    (hphase : s.eng.phase = .read k first) (hleft : k ≠ 0#16) (hroom : s.eng.rxq.length < s.params.qDepth) :
    s.readEnabled = true := by
  simp [State.readEnabled, hactive, hphase, hleft, hroom]

theorem exec_qunitRx {s : State} {k : BitVec 16} {first : Bool} (hactive : s.active .cdr = true)
    (hphase : s.eng.phase = .read k first) (hleft : k ≠ 0#16) (hroom : s.eng.rxq.length < s.params.qDepth) (d : Byte) :
    exec (.qunitRx d) s = .next
      ((((if first then s.emit .settle else s).rcycle d).pushRx d).setPhase (.read (k - 1#16) false)) := by
  refine congrArg _ ((if_pos (State.readEnabled_of_read hactive hphase hleft hroom)).trans ?_)
  rw [hphase]

/-- Settles O23: each unit is its queue's pop and one or three write cycles. -/
theorem writeUnitsBecomeWriteCycles : Obligations.WriteUnitsBecomeWriteCycles := by
  intro s w rest
  refine ⟨fun hactive hqueue dc d => ?cw, fun hactive hqueue d => ?dwb, fun hactive hqueue a b c => ?dwt⟩
  case cw => exact exec_qunitCw hactive hqueue dc d
  case dwb => exact exec_qunitDwb hactive hqueue d
  case dwt =>
    have htrace : s.trace ++ [.w true a, .w true b, .w true c] =
        s.trace ++ [.w true a] ++ [.w true b] ++ [.w true c] := by simp
    rw [exec_qunitDwt hactive hqueue, htrace]
    rfl

/-- Settles O24: the count, the command and the strobe, each by its unit's meaning; the first strobe settles first. -/
theorem cdrUnitsRunTheReadTransaction : Obligations.CdrUnitsRunTheReadTransaction := by
  intro s hactive
  refine ⟨fun w rest n hqueue hphase => ?count, fun w rest n d hqueue hphase => ?cmd,
    fun k first d hphase hleft hroom => ?strobe⟩
  case count => exact exec_qunitCdrCount hactive hqueue hphase n
  case cmd =>
    have htrace : s.trace ++ [.w false d, .dirIn] = s.trace ++ [.w false d] ++ [.dirIn] := by simp
    rw [exec_qunitCdrCmd hactive hqueue hphase, htrace]
    rfl
  case strobe =>
    rw [exec_qunitRx hactive hphase hleft hroom]
    cases first with
    | true => rfl
    | false =>
      rw [if_neg Bool.false_ne_true, if_neg Bool.false_ne_true, List.append_nil]
      rfl

/-! ## The restored data lane (R198) -/

/-- With no strobe left the CDR fetches nothing and restores the data lane. -/
theorem runEngine_restore {s : State} {first : Bool} (hactive : s.active .cdr = true)
    (hphase : s.eng.phase = .read 0#16 first) : runEngine .cdr s = .next s.cdrRestore := by
  have hfetch : engineFetch s .cdr = none := by
    simp [engineFetch, unitKind, cdrUnitKind, State.readEnabled, hphase]
  have hrestore : s.restoreEnabled = true := by simp [State.restoreEnabled, hactive, hphase]
  simp only [runEngine, hfetch, hrestore, and_self, if_true]

/-- Settles O25: the step is the CDR's turn after the bookkeeping, which leaves its phase alone. -/
theorem cdrRestoresTheDataLane : Obligations.CdrRestoresTheDataLane := by
  intro s first hfaults hrefused hturn hactive hphase
  rw [step_eq hfaults hrefused, hturn]
  exact runEngine_restore (s := s.tick) hactive hphase

/-! ## A read transaction (R195 to R198, R203) -/

theorem runSteps_succ {s t : State} (h : step s = .next t) (n : Nat) : runSteps (n + 1) s = runSteps n t := by
  simp only [runSteps, h]

/-- The next `n` turns are the active CDR's, in a run that goes on. -/
structure CdrTurns (n : Nat) (s : State) : Prop where
  faults : s.faults = []
  refused : s.refused = none
  enable : s.eng.enable = 8#4
  sched : ∃ rest, s.world.sched = List.replicate n (Turn.engine .cdr) ++ rest

theorem CdrTurns.active {n : Nat} {s : State} (h : CdrTurns n s) : s.active .cdr = true := by
  rw [State.active, h.enable]
  decide

theorem CdrTurns.nextTurn {n : Nat} {s : State} (h : CdrTurns (n + 1) s) : s.nextTurn = .engine .cdr := by
  obtain ⟨rest, hsched⟩ := h.sched
  simp [State.nextTurn, hsched, List.replicate_succ]

/-- A turn that leaves `F`, `refused`, the enable set and the rest of the schedule alone. -/
theorem CdrTurns.of_turn {n : Nat} {s t : State} (h : CdrTurns (n + 1) s) (hfaults : t.faults = s.faults)
    (hrefused : t.refused = s.refused) (henable : t.eng.enable = s.eng.enable)
    (hsched : t.world.sched = s.world.sched.tail) : CdrTurns n t := by
  obtain ⟨rest, hturns⟩ := h.sched
  exact ⟨hfaults.trans h.faults, hrefused.trans h.refused, henable.trans h.enable, rest, by
    rw [hsched, hturns, List.replicate_succ, List.cons_append, List.tail_cons]⟩

/-- The count opens the transaction (R195). -/
theorem CdrTurns.step_count {n : Nat} {s : State} {w : Word} {ws : List Word} (h : CdrTurns (n + 1) s)
    (hqueue : s.eng.txqCdr = w :: ws) (hphase : s.eng.phase = .count) :
    ∃ t, step s = .next t ∧ CdrTurns n t ∧ t.eng.phase = .cmd (slice w 0 16) ∧ t.eng.txqCdr = ws ∧
      t.eng.rxq = s.eng.rxq ∧ t.trace = s.trace ∧ t.world.device = s.world.device ∧ t.params = s.params := by
  obtain ⟨-, -, -, hcount, -, -⟩ := engineStepRunsItsUnit s h.faults h.refused
  obtain ⟨hunit, -, -⟩ := cdrUnitsRunTheReadTransaction s.tick h.active
  have hstep := (hcount w ws h.nextTurn h.active hqueue hphase).trans (hunit w ws _ hqueue hphase)
  exact ⟨_, hstep, h.of_turn rfl rfl rfl rfl, rfl, rfl, rfl, rfl, rfl, rfl⟩

/-- The command goes out and the data lane turns to input (R196). -/
theorem CdrTurns.step_cmd {n : Nat} {s : State} {w : Word} {ws : List Word} {c : BitVec 16} (h : CdrTurns (n + 1) s)
    (hqueue : s.eng.txqCdr = w :: ws) (hphase : s.eng.phase = .cmd c) :
    ∃ t, step s = .next t ∧ CdrTurns n t ∧ t.eng.phase = .read c true ∧ t.eng.txqCdr = ws ∧ t.eng.rxq = s.eng.rxq ∧
      t.trace = s.trace ++ [.w false (slice w 0 8), .dirIn] ∧ t.world.device = s.world.device ∧
      t.params = s.params := by
  obtain ⟨-, -, -, -, hcmd, -⟩ := engineStepRunsItsUnit s h.faults h.refused
  obtain ⟨-, hunit, -⟩ := cdrUnitsRunTheReadTransaction s.tick h.active
  have hstep := (hcmd w ws c h.nextTurn h.active hqueue hphase).trans (hunit w ws c _ hqueue hphase)
  exact ⟨_, hstep, h.of_turn rfl rfl rfl rfl, rfl, rfl, rfl, rfl, rfl, rfl⟩

/-- A strobe takes the device's next byte into RXQ (R197). -/
theorem CdrTurns.step_strobe {n : Nat} {s : State} {k : BitVec 16} {first : Bool} {b : Byte} {bs : List Byte}
    (h : CdrTurns (n + 1) s) (hphase : s.eng.phase = .read k first) (hleft : k ≠ 0#16)
    (hroom : s.eng.rxq.length < s.params.qDepth) (hdevice : s.world.device = b :: bs) :
    ∃ t, step s = .next t ∧ CdrTurns n t ∧ t.eng.phase = .read (k - 1#16) false ∧ t.eng.txqCdr = s.eng.txqCdr ∧
      t.eng.rxq = s.eng.rxq ++ [b] ∧ t.trace = s.trace ++ (if first then [.settle] else []) ++ [.rd b] ∧
      t.world.device = bs ∧ t.params = s.params := by
  obtain ⟨-, -, -, -, -, hread⟩ := engineStepRunsItsUnit s h.faults h.refused
  obtain ⟨-, -, hunit⟩ := cdrUnitsRunTheReadTransaction s.tick.drawn h.active
  have hbyte : s.deviceByte = b := by rw [State.deviceByte, hdevice]
  have hstep := (hread k first h.nextTurn h.active hphase hleft hroom).trans (hunit k first _ hphase hleft hroom)
  rw [hbyte] at hstep
  exact ⟨_, hstep, h.of_turn rfl rfl rfl rfl, rfl, rfl, rfl, rfl, congrArg List.tail hdevice, rfl⟩

/-- The read phase of a transaction: a strobe for each byte the device answers, then the restored data lane. -/
theorem runSteps_readPhase (bs : List Byte) {s : State} {k : BitVec 16} {first : Bool} {more : List Byte}
    (h : CdrTurns (bs.length + 1) s) (hphase : s.eng.phase = .read k first) (hcount : k.toNat = bs.length)
    (hroom : s.eng.rxq.length + bs.length ≤ s.params.qDepth) (hdevice : s.world.device = bs ++ more) :
    ∃ t, runSteps (bs.length + 1) s = .next t ∧
      t.trace = s.trace ++ (if first = true ∧ bs ≠ [] then [.settle] else []) ++ bs.map BusEvent.rd ++ [.dirOut] ∧
      t.eng.rxq = s.eng.rxq ++ bs ∧ t.eng.phase = .count ∧ t.eng.txqCdr = s.eng.txqCdr ∧ t.pins.dataDir = .out := by
  induction bs generalizing s k first with
  | nil =>
    obtain rfl : k = 0#16 := BitVec.eq_of_toNat_eq hcount
    have hstep := cdrRestoresTheDataLane s first h.faults h.refused h.nextTurn h.active hphase
    exact ⟨_, runSteps_succ hstep 0, by simp⟩
  | cons b bs ih =>
    rw [List.length_cons] at hcount hroom h
    have hleft : k ≠ 0#16 := fun hzero => by simp [hzero] at hcount
    obtain ⟨u, hstep, hturns, hphaseU, hqueueU, hrxqU, htraceU, hdeviceU, hparamsU⟩ :=
      h.step_strobe hphase hleft (by omega) hdevice
    have hcountU : (k - 1#16).toNat = bs.length := by bv_omega
    have hroomU : u.eng.rxq.length + bs.length ≤ u.params.qDepth := by
      rw [hrxqU, hparamsU, List.length_append, List.length_singleton]
      omega
    obtain ⟨t, hrun, htrace, hrxq, hend, hqueue, hlane⟩ := ih hturns hphaseU hcountU hroomU hdeviceU
    refine ⟨t, (runSteps_succ hstep _).trans hrun, ?_, ?_, hend, hqueue.trans hqueueU, hlane⟩
    · simp [htrace, htraceU]
    · simp [hrxq, hrxqU]

/-- Settles O49: the count and the command open the read phase, whose strobes and restore are `runSteps_readPhase`. -/
theorem readTransactionTrace : Obligations.ReadTransactionTrace := by
  intro s wn wc bs more rest hfaults hrefused henable hphase hqueue hrxq hcount hdepth hdevice hsched
  have hturns : CdrTurns (bs.length + 3) s := ⟨hfaults, hrefused, henable, rest, hsched⟩
  obtain ⟨u, hstepU, hturnsU, hphaseU, hqueueU, hrxqU, htraceU, hdeviceU, hparamsU⟩ :=
    hturns.step_count hqueue hphase
  obtain ⟨v, hstepV, hturnsV, hphaseV, hqueueV, hrxqV, htraceV, hdeviceV, hparamsV⟩ :=
    hturnsU.step_cmd hqueueU hphaseU
  have hempty : v.eng.rxq = [] := hrxqV.trans (hrxqU.trans hrxq)
  have hroom : v.eng.rxq.length + bs.length ≤ v.params.qDepth := by
    simpa [hempty, hparamsV, hparamsU] using hdepth
  obtain ⟨t, hrun, htrace, hbytes, hend, hdrained, hlane⟩ :=
    runSteps_readPhase bs hturnsV hphaseV hcount hroom (hdeviceV.trans (hdeviceU.trans hdevice))
  refine ⟨t, ?_, ?_, ?_, hend, hdrained.trans hqueueV, hlane⟩
  · rw [runSteps_succ hstepU, runSteps_succ hstepV, hrun]
  · simp [htrace, htraceV, htraceU]
  · rw [hbytes, hempty, List.nil_append]

end Sys2Proof.Machine
end

section
/-! SUPPORT. The DMA's invariant (43_dma R230, R233, R234, R236, R240, R241, 45_window R334): what its own steps, a
submission and a window START keep of it; with it the statement StepKeepsTheTransferInRange. -/

namespace Sys2Proof.Machine

theorem sizeBytes_pos (n : AccessSize) : 0 < sizeBytes n := by cases n <;> decide

/-! ## What leaves the invariant alone -/

/-- What leaves the parameters, the channel and the pending units alone, and undoes no INIT, keeps the invariant. -/
theorem DmaInv.of_frame {s t : State} (h : DmaInv s) (hparams : t.params = s.params := by simp)
    (hcfg : s.cfg.configured = true → t.cfg.configured = true := by simp) (hdma : t.dma = s.dma := by simp)
    (hpending : t.win.pending = s.win.pending := by simp) : DmaInv t := by
  obtain ⟨habort, hgrace, hcount, hconfigured, hrx, hrange, hvalid, haligned, hfeeder⟩ := h
  rw [← hdma] at habort hgrace hcount hconfigured hrx hrange hvalid haligned hfeeder
  rw [← hparams] at hvalid
  rw [← hpending] at hfeeder
  exact ⟨habort, hgrace, hcount, fun hbusy => hcfg (hconfigured hbusy), hrx, hrange, hvalid, haligned, hfeeder⟩

/-- Only a busy channel can be aborted, so an idle one has no grace either (R240). -/
theorem DmaInv.flags_of_idle {s : State} (h : DmaInv s) (hidle : s.dma.busy = false) :
    s.dma.abortPending = false ∧ s.dma.grace = false := by
  have habort : ¬s.dma.abortPending = true := fun hpending => by simpa [hidle] using h.abortBusy hpending
  exact ⟨Bool.eq_false_iff.2 habort, Bool.eq_false_iff.2 fun hgrace => habort (h.graceAbort hgrace)⟩

/-- The invariant of an idle channel is that of its flags and fields. -/
theorem DmaInv.of_idle {s : State} (hidle : s.dma.busy = false)
    (hflags : s.dma.abortPending = false ∧ s.dma.grace = false) (hrx : s.dma.qsel = .rx → s.dma.size = .b1) :
    DmaInv s := by
  obtain ⟨habort, hgrace⟩ := hflags
  have hnever : ∀ {p : Prop}, s.dma.busy = true → p := fun hbusy => by simp [hidle] at hbusy
  exact ⟨by simp [habort], by simp [hgrace], hnever, hnever, hrx, hnever, hnever, hnever, hnever⟩

/-! ## Configuration and the window (R151 to R153, R322, R333, R334) -/

theorem DmaInv.configWrite {s : State} {c : Cfg} (h : DmaInv s) (hc : c.configured = s.cfg.configured) :
    DmaInv (s.configWrite c) := by
  rcases s.configWrite_cases c with ⟨-, hraise⟩ | ⟨-, hwrite⟩
  · rw [hraise]; exact h.of_frame
  · rw [hwrite]; exact h.of_frame (hcfg := hc.trans)

theorem DmaInv.windowWrite {s : State} {w : Win} (h : DmaInv s) (hpending : w.pending = s.win.pending) :
    DmaInv (s.windowWrite w) := by
  rcases s.windowWrite_cases w with ⟨-, hraise⟩ | ⟨-, hwrite⟩
  · rw [hraise]; exact h.of_frame
  · rw [hwrite]; exact h.of_frame (hpending := hpending)

/-- A START makes units pending only while no transfer feeds TXQ[0]. -/
theorem DmaInv.winStart {s : State} (h : DmaInv s) : DmaInv s.winStart := by
  rcases s.winStart_cases with ⟨-, hraise⟩ | ⟨-, -, hinvalid⟩ | ⟨hfree, -, hstart⟩
  · rw [hraise]; exact h.of_frame
  · rw [hinvalid]; exact h.of_frame
  · rw [hstart]; exact { h with oneFeeder := fun hbusy hqsel => absurd ⟨hbusy, hqsel⟩ hfree }

/-- While a transfer feeds TXQ[0] the sequencer has no unit to move. -/
theorem DmaInv.winStep {s : State} (h : DmaInv s) : DmaInv s.winStep := by
  rcases s.winStep_cases with ⟨-, hsame⟩ | ⟨u, rest, hpending, -, hmove⟩
  · rw [hsame]; exact h
  · have hnone : s.dma.busy = true → s.dma.qsel = .tx .cw → rest = [] := fun hbusy hqsel => by
      simpa [hpending] using h.oneFeeder hbusy hqsel
    rw [hmove]; exact { h with oneFeeder := hnone }

/-! ## The descriptor (R231, R234, R237) and a submission (R233) -/

theorem DmaInv.descriptorWrite {s : State} {d : Dma} (h : DmaInv s)
    (hd : d = { s.dma with addr := d.addr, count := d.count }) : DmaInv (s.descriptorWrite d) := by
  rcases s.descriptorWrite_cases d with ⟨-, hraise⟩ | ⟨hidle, hwrite⟩
  · rw [hraise]; exact h.of_frame
  · rw [hwrite, hd]
    exact .of_idle hidle (h.flags_of_idle hidle) h.rxBytes

/-- The stored fields of an idle channel. -/
theorem DmaInv.transferFields {s : State} {sz : AccessSize} {incr : Bool} {q : QSel} (h : DmaInv s)
    (hidle : s.dma.busy = false) (hrx : q = .rx → sz = .b1) :
    DmaInv { s with dma.size := sz, dma.incr := incr, dma.qsel := q } :=
  .of_idle hidle (h.flags_of_idle hidle) hrx

/-- The range fixed at submission is what is left to touch, and it passed the check of R83. -/
theorem DmaInv.dmaStart {s : State} (h : DmaInv s) (hidle : s.dma.busy = false) (hconfigured : s.cfg.configured = true)
    (hfree : ¬(s.dma.qsel = .tx .cw ∧ s.winBusy = true)) : DmaInv s.dmaStart := by
  have hreport : ∀ c, DmaInv (s.reportDma c) := fun c => .of_idle hidle (h.flags_of_idle hidle) h.rxBytes
  rcases s.dmaStart_cases with ⟨-, hok⟩ | ⟨-, -, herror⟩ | ⟨hcount, haligned, hrange, hstart⟩
  · rw [hok]; exact hreport _
  · rw [herror]; exact hreport _
  · have hpos : 0 < (dmaRange s.dma).len := by
      have hunits : 0 < s.dma.count.toNat := by bv_omega
      have hunit := sizeBytes_pos s.dma.size
      unfold dmaRange
      cases s.dma.incr
      · exact hunit
      · exact Nat.mul_pos hunits hunit
    have hvalid := ((rangeOk_iff s.params (dmaRange s.dma)).1 hrange).resolve_left hpos.ne'
    have hpending : s.dma.qsel = .tx .cw → s.win.pending = [] := by simpa [State.winBusy] using hfree
    rw [hstart]
    exact
      { abortBusy := nofun, graceAbort := nofun, busyCount := fun _ => hcount, busyConfigured := fun _ => hconfigured
        rxBytes := h.rxBytes, inRange := fun _ => ⟨le_rfl, le_rfl⟩, validRange := fun _ => hvalid
        aligned := fun _ => haligned, oneFeeder := fun _ => hpending }

/-! ## The DMA's steps (R236, R239, R241) -/

theorem DmaInv.dmaStop {s : State} (h : DmaInv s) : DmaInv s.dmaStop := .of_idle rfl ⟨rfl, rfl⟩ h.rxBytes

theorem DmaInv.dmaAck {s : State} (h : DmaInv s) : DmaInv s.dmaAck := by
  unfold State.dmaAck
  split
  · exact h.dmaStop
  · exact h

/-- With another unit to come, DMA_ADDR does not wrap: the next unit lies below `dma.hi` too. -/
theorem DmaInv.next_addr {s : State} (h : DmaInv s) (hbusy : s.dma.busy = true) (hincr : s.dma.incr = true)
    (hmore : 2 ≤ s.dma.count.toNat) :
    (s.dma.addr + BitVec.ofNat 32 (sizeBytes s.dma.size)).toNat = s.dma.addr.toNat + sizeBytes s.dma.size := by
  obtain ⟨-, hend⟩ := h.inRange hbusy
  obtain ⟨htop, -⟩ := h.validRange hbusy
  have htwo : 2 * sizeBytes s.dma.size ≤ s.dma.count.toNat * sizeBytes s.dma.size := Nat.mul_le_mul_right _ hmore
  have hpos := sizeBytes_pos s.dma.size
  have hle := sizeBytes_le s.dma.size
  rw [dmaRemaining, if_pos hincr] at hend
  rw [BitVec.toNat_add, BitVec.toNat_ofNat]
  omega

/-- A unit that is not the last takes its bytes off the front of what is left, and the address stays aligned. -/
theorem DmaInv.range_of_countDown {s : State} (h : DmaInv s) (hbusy : s.dma.busy = true)
    (hmore : s.dma.count - 1#32 ≠ 0#32) :
    s.dma.lo ≤ s.dmaCountDown.dma.addr.toNat ∧
      s.dmaCountDown.dma.addr.toNat + dmaRemaining s.dmaCountDown.dma ≤ s.dma.hi ∧
        s.dmaCountDown.dma.addr.toNat % sizeBytes s.dma.size = 0 := by
  obtain ⟨hlow, hend⟩ := h.inRange hbusy
  have haligned := h.aligned hbusy
  cases hincr : s.dma.incr with
  | false => simpa [State.dmaCountDown, dmaRemaining, hincr] using And.intro hlow (And.intro hend haligned)
  | true =>
    have hcount := h.busyCount hbusy
    have hunits : 2 ≤ s.dma.count.toNat := by bv_omega
    have hless : (s.dma.count - 1#32).toNat = s.dma.count.toNat - 1 := by bv_omega
    have hrest : (s.dma.count.toNat - 1) * sizeBytes s.dma.size + sizeBytes s.dma.size =
        s.dma.count.toNat * sizeBytes s.dma.size := by
      rw [← Nat.succ_mul, Nat.succ_eq_add_one, Nat.sub_add_cancel (by omega)]
    simp only [dmaRemaining, hincr, if_true] at hend
    simp only [State.dmaCountDown, dmaRemaining, hincr, if_true, h.next_addr hbusy hincr hunits, hless,
      Nat.add_mod_right]
    exact ⟨by omega, by omega, haligned⟩

theorem DmaInv.dmaCountDown {s : State} (h : DmaInv s) (hbusy : s.dma.busy = true)
    (hmore : s.dma.count - 1#32 ≠ 0#32) : DmaInv s.dmaCountDown := by
  obtain ⟨hlow, hend, haligned⟩ := h.range_of_countDown hbusy hmore
  exact
    { abortBusy := fun _ => hbusy, graceAbort := nofun, busyCount := fun _ => hmore
      busyConfigured := h.busyConfigured, rxBytes := h.rxBytes, inRange := fun _ => ⟨hlow, hend⟩
      validRange := h.validRange, aligned := fun _ => haligned, oneFeeder := h.oneFeeder }

/-- What an enabled unit step finds (R236). -/
theorem State.dmaUnitEnabled_iff (s : State) :
    s.dmaUnitEnabled = true ↔ s.dma.busy = true ∧ s.dma.count ≠ 0#32 ∧
      (s.dma.abortPending = false ∨ s.dma.grace = true) ∧ s.dmaTrigger = true := by
  simp only [State.dmaUnitEnabled, Bool.and_eq_true, Bool.or_eq_true, Bool.not_eq_true', decide_eq_true_eq, and_assoc]

theorem DmaInv.dmaUnit {s : State} (h : DmaInv s) : DmaInv s.dmaUnit := by
  rcases s.dmaUnit_cases with ⟨-, hsame⟩ | ⟨henabled, hunit⟩
  · rw [hsame]; exact h
  · obtain ⟨hbusy, -⟩ := s.dmaUnitEnabled_iff.1 henabled
    have hmove : DmaInv s.dmaMove := h.of_frame
    rw [hunit]
    split
    · exact .of_idle rfl ⟨rfl, rfl⟩ hmove.rxBytes
    next hmore => exact hmove.dmaCountDown (by simpa using hbusy) hmore

/-! ## Every meaning, and every step -/

theorem DmaInv.effect {s t : State} (h : DmaInv s) (he : Effect s t) : DmaInv t := by
  cases he with
  | same => exact h
  | raise | refuse | hold | hostReturn | pinConflict | pinctl | setEnable | terminate | hostPush | hostPop | encOperands
  | encStart | memWrite | delay | writeUnit | tripleUnit | countUnit | commandUnit => exact h.of_frame
  | initialised => exact h.of_frame (hcfg := fun _ => rfl)
  | configWrite c hc => exact h.configWrite (by rw [hc])
  | clear sel => rw [s.clear_eq sel]; exact h.of_frame
  | descriptorWrite d hd => exact h.descriptorWrite hd
  | transferFields sz incr q hidle hrx => exact h.transferFields hidle hrx
  | submit sz incr q hidle hrx hconfigured hfree => exact (h.transferFields hidle hrx).dmaStart hidle hconfigured hfree
  | abort hbusy => exact { h with abortBusy := fun _ => hbusy, graceAbort := fun _ => rfl }
  | windowWrite w hpending => exact h.windowWrite hpending
  | winStart orient => exact (h.of_frame (t := { s with win.orient := orient })).winStart
  | readStrobe k first => cases first <;> exact h.of_frame

/-- Settles O54: a submission fixes an admitted range, and a unit step moves within it. -/
theorem stepKeepsTheTransferInRange : Obligations.StepKeepsTheTransferInRange := by
  intro s t hs hstep
  exact step_keeps DmaInv
    (tick := fun _ h => h.of_frame)
    (unhold := fun _ h => h.of_frame)
    (advance := fun _ h => h.of_frame)
    (refuse := fun _ _ h => h.of_frame)
    (drawn := fun _ h => h.of_frame)
    (meaning := fun _ _ _ hexec h => h.effect (exec_effect hexec))
    (restore := fun _ _ h => h.of_frame)
    (unit := fun _ h => h.dmaUnit)
    (ack := fun _ h => h.dmaAck)
    (window := fun _ h => h.winStep)
    hstep hs

end Sys2Proof.Machine
end

section
/-! SUPPORT. The DMA's own steps and the abort (43_dma R236, R239 to R241): a unit step and the acknowledgement as the
channel's next fields, and that an aborted channel can be changed by these two alone; with them the statements
DmaAckStepStopsTheChannel, DmaUnitStepMovesOneUnit, AbortRequestMarksABusyChannel, AbortedChannelMovesAtMostOneUnit and
AbortIsAcknowledgedUnderFairness. -/

namespace Sys2Proof.Machine

/-! ## The acknowledgement (R241) -/

theorem State.dmaAck_of_pending {s : State} (h : s.dma.abortPending = true) : s.dmaAck = s.dmaStop := if_pos h

/-- Settles O27: the acknowledgement stops the channel. -/
theorem dmaAckStepStopsTheChannel : Obligations.DmaAckStepStopsTheChannel := by
  intro s hfaults hrefused hturn hpending
  rw [step_eq hfaults hrefused, hturn]
  exact congrArg Host.Outcome.next (State.dmaAck_of_pending (s := s.tick) hpending)

/-- After the acknowledgement's turn no abort is pending, whether one was or not. -/
theorem State.dmaAck_abortPending (s : State) : s.dmaAck.dma.abortPending = false := by
  cases h : s.dma.abortPending with
  | false => rw [State.dmaAck_of_not_pending h, h]
  | true => rw [State.dmaAck_of_pending h]; rfl

/-- Settles O32: fairness either finds the acknowledgement disabled, which is that no abort is pending, or gives it its
turn. -/
theorem abortIsAcknowledgedUnderFairness : Obligations.AbortIsAcknowledgedUnderFairness := by
  intro run hrun hfair n _
  obtain ⟨m, hle, hdisabled | hturn⟩ := hfair .dmaAck n
  · exact ⟨m, hle, hdisabled⟩
  · obtain ⟨-, -, hstep⟩ := step_cases (hrun m)
    rw [hturn] at hstep
    have hnext : (run m).tick.dmaAck = run (m + 1) := Host.Outcome.next.inj hstep
    exact ⟨m + 1, by omega, hnext ▸ State.dmaAck_abortPending _⟩

/-! ## The unit step (R236, R239) -/

/-- The channel's fields with the counters moved on by one unit. -/
def dmaCounted (d : Dma) : Dma :=
  { d with
    count := d.count - 1#32
    addr := if d.incr then d.addr + BitVec.ofNat 32 (sizeBytes d.size) else d.addr
    grace := false }

/-- The channel's fields after a unit: at the last unit the transfer is complete besides. -/
def dmaAfterUnit (d : Dma) : Dma :=
  if d.count = 1#32 then { dmaCounted d with busy := false, abortPending := false } else dmaCounted d

theorem dmaAfterUnit_count (d : Dma) : (dmaAfterUnit d).count = d.count - 1#32 := by
  unfold dmaAfterUnit; split <;> rfl

theorem dmaAfterUnit_grace (d : Dma) : (dmaAfterUnit d).grace = false := by
  unfold dmaAfterUnit; split <;> rfl

/-- An enabled unit step moves its unit and leaves the channel's fields after a unit. -/
theorem State.dmaUnit_of_enabled {s : State} (h : s.dmaUnitEnabled = true) :
    s.dmaUnit = { s.dmaMove with dma := dmaAfterUnit s.dma } := by
  have hlast : s.dma.count - 1#32 = 0#32 ↔ s.dma.count = 1#32 := by bv_omega
  rcases s.dmaUnit_cases with ⟨hdisabled, -⟩ | ⟨-, hunit⟩
  · simp [h] at hdisabled
  · rw [hunit]
    by_cases hone : s.dma.count = 1#32
    · simp [State.dmaCountDown, State.dmaStop, dmaAfterUnit, dmaCounted, hone]
    · simp [State.dmaCountDown, dmaAfterUnit, dmaCounted, hlast, hone]

theorem State.dmaMove_of_tx {s : State} {e : Engine} (h : s.dma.qsel = .tx e) :
    s.dmaMove = s.setTxq e (s.txq e ++ [s.mem.readLE s.dma.addr (sizeBytes s.dma.size)]) := by
  simp only [State.dmaMove, h]
  rfl

theorem State.dmaMove_of_rx {s : State} {b : Byte} {rest : List Byte} (h : s.dma.qsel = .rx)
    (hrxq : s.eng.rxq = b :: rest) :
    s.dmaMove = { s with mem := s.mem.write s.dma.addr.toNat b, eng.rxq := rest } := by
  simp only [State.dmaMove, h, hrxq, State.popRx, List.tail_cons]

theorem step_dmaUnit {s : State} (hfaults : s.faults = []) (hrefused : s.refused = none)
    (hturn : s.nextTurn = .dmaUnit) (henabled : s.dmaUnitEnabled = true) :
    step s = .next { s.tick.dmaMove with dma := dmaAfterUnit s.dma } := by
  rw [step_eq hfaults hrefused, hturn]
  exact congrArg Host.Outcome.next (State.dmaUnit_of_enabled (s := s.tick) henabled)

/-- Settles O26: the queue of QSEL is ready, so the step is the unit's move with the channel's fields after it. -/
theorem dmaUnitStepMovesOneUnit : Obligations.DmaUnitStepMovesOneUnit := by
  intro s hfaults hrefused hturn hbusy hcount hgoes
  have henabled : s.dmaTrigger = true → s.dmaUnitEnabled = true := fun htrigger =>
    s.dmaUnitEnabled_iff.2 ⟨hbusy, hcount, hgoes, htrigger⟩
  constructor
  · intro e hqsel hroom
    have htrigger : s.dmaTrigger = true := by simpa [State.dmaTrigger, hqsel] using hroom
    rw [step_dmaUnit hfaults hrefused hturn (henabled htrigger), State.dmaMove_of_tx (s := s.tick) hqsel]
    cases e <;> rfl
  · intro b rest hqsel hrxq
    have htrigger : s.dmaTrigger = true := by simp [State.dmaTrigger, hqsel, hrxq]
    rw [step_dmaUnit hfaults hrefused hturn (henabled htrigger), State.dmaMove_of_rx (s := s.tick) hqsel hrxq]
    rfl

/-! ## The abort request (R240) -/

theorem exec_abort_of_busy {s : State} (hbusy : s.dma.busy = true) (hfirst : s.dma.abortPending = false) :
    exec (.wDmaAbort true) s = .next { s with dma := { s.dma with abortPending := true, grace := true } } :=
  congrArg Host.Outcome.next (if_pos (by simp [hbusy, hfirst]))

theorem exec_abort_of_idle {s : State} {a : Bool} (h : a = false ∨ s.dma.busy = false ∨ s.dma.abortPending = true) :
    exec (.wDmaAbort a) s = .next s :=
  congrArg Host.Outcome.next (if_neg fun hguard => by
    simp only [Bool.and_eq_true, Bool.not_eq_true'] at hguard
    obtain ⟨⟨ha, hbusy⟩, hfirst⟩ := hguard
    simp [ha, hbusy, hfirst] at h)

/-- Settles O30: the request's guard holds exactly in the first case. -/
theorem abortRequestMarksABusyChannel : Obligations.AbortRequestMarksABusyChannel := by
  refine ⟨encodes_of_register .dmaAbort (by decide) (by decide) fun _ _ => rfl, fun s a => ⟨?first, exec_abort_of_idle⟩⟩
  rintro rfl hbusy hfirst
  exact exec_abort_of_busy hbusy hfirst

/-! ## While an abort is pending (R241) -/

/-- A busy channel with an abort pending: the host's writes to the channel fault or do nothing, and no other meaning
touches it. -/
theorem Effect.dma_of_pending {s t : State} (he : Effect s t) (hbusy : s.dma.busy = true)
    (hpending : s.dma.abortPending = true) : t.dma = s.dma := by
  cases he with
  | same | raise | refuse | hold | hostReturn | configWrite | pinConflict | initialised | pinctl | setEnable | terminate
  | hostPush | hostPop | encOperands | encStart | memWrite | delay | windowWrite | winStart | writeUnit | tripleUnit
  | countUnit | commandUnit => simp
  | clear sel => rw [s.clear_eq sel]
  | descriptorWrite d =>
    rcases s.descriptorWrite_cases d with ⟨-, hraise⟩ | ⟨hidle, -⟩
    · rw [hraise, State.raise_dma]
    · simp [hbusy] at hidle
  | transferFields _ _ _ hidle | submit _ _ _ hidle => simp [hbusy] at hidle
  | abort _ hfirst => simp [hpending] at hfirst
  | readStrobe k first => cases first <;> rfl

/-- The turns of the host, the engines and the sequencer leave an aborted channel alone. -/
theorem runTurn_dma_of_pending {u : Turn} {s t : State} (h : runTurn u s = .next t) (hunit : u ≠ .dmaUnit)
    (hack : u ≠ .dmaAck) (hbusy : s.dma.busy = true) (hpending : s.dma.abortPending = true) : t.dma = s.dma := by
  cases u with
  | host =>
    rcases runHost_cases h with ⟨-, rfl⟩ | ⟨op, rest, -, ⟨e, -, rfl⟩ | ⟨i, v, -, hexec, rfl⟩⟩
    · rfl
    · rfl
    · have hdone : v.hostDone.dma = v.dma := by unfold State.hostDone; split <;> rfl
      exact hdone.trans ((exec_effect hexec).dma_of_pending hbusy hpending)
  | engine e =>
    rcases runEngine_cases h with ⟨k, w, -, hexec⟩ | ⟨-, hexec⟩ | ⟨-, -, -, rfl⟩ | ⟨-, -, rfl⟩
    · exact (exec_effect hexec).dma_of_pending hbusy hpending
    · exact (exec_effect hexec).dma_of_pending hbusy hpending
    · rfl
    · rfl
  | dmaUnit => exact absurd rfl hunit
  | dmaAck => exact absurd rfl hack
  | window => cases h; exact s.winStep_dma

/-- Settles O31: only the DMA's own turns change an aborted channel, and its unit step needs the grace. -/
theorem abortedChannelMovesAtMostOneUnit : Obligations.AbortedChannelMovesAtMostOneUnit := by
  intro s t hinv hpending hstep
  obtain ⟨-, -, hrun⟩ := step_cases hstep
  have hbusy : s.tick.dma.busy = true := hinv.abortBusy hpending
  by_cases hack : s.nextTurn = .dmaAck
  · rw [hack] at hrun
    cases hrun
    rw [State.dmaAck_of_pending (s := s.tick) hpending]
    exact .inl ⟨rfl, nofun⟩
  by_cases hunit : s.nextTurn = .dmaUnit
  · rw [hunit] at hrun
    cases hrun
    cases henabled : s.tick.dmaUnitEnabled with
    | false => rw [State.dmaUnit_of_not_enabled henabled]; exact .inl ⟨rfl, id⟩
    | true =>
      obtain ⟨-, -, hgoes, -⟩ := s.tick.dmaUnitEnabled_iff.1 henabled
      have hgrace : s.dma.grace = true := hgoes.resolve_left (by simp [hpending])
      rw [State.dmaUnit_of_enabled henabled]
      exact .inr ⟨hgrace, dmaAfterUnit_count s.dma, dmaAfterUnit_grace s.dma⟩
  · have hdma : t.dma = s.dma := runTurn_dma_of_pending (s := s.tick) hrun hunit hack hbusy hpending
    rw [hdma]
    exact .inl ⟨rfl, id⟩

end Sys2Proof.Machine
end

section
/-! SUPPORT. The registers of the DMA and of the encoder's operands (43_dma R231 to R235, R237, R238, R242, R247,
44_pixel_encoding R277 to R291): the words their reads return, and the descriptor writes and a submission branch by
branch; with them the statements DmaAndOperandReadsReturnTheirRegister, DescriptorWritesStoreWhileIdle and
SubmitStartsTheTransfer. -/

namespace Sys2Proof.Machine

open Sys2Proof.Laws

/-! ## The words the reads return (R232, R235, R238, R242, R277 to R291) -/

/-- SIZE reads as the binary logarithm of the bytes of a unit (R49). -/
theorem sizeBits_toNat (n : AccessSize) : (sizeBits n).toNat = Nat.log2 (sizeBytes n) := by cases n <;> decide

theorem engineIndex_eq_qselBits (e : Engine) : (qselBits (.tx e)).toNat = engineIndex e := by cases e <;> rfl

theorem State.dmaCtrlWord_toNat (s : State) :
    s.dmaCtrlWord.toNat =
      s.dma.busy.toNat + Nat.log2 (sizeBytes s.dma.size) * 2 + s.dma.incr.toNat * 2 ^ 3
        + (qselBits s.dma.qsel).toNat * 2 ^ 4 + errNumber s.dma.err * 2 ^ 8 := by
  simp only [State.dmaCtrlWord, append_toNat, errByte_toNat, sizeBits_toNat, BitVec.toNat_ofBool, BitVec.toNat_ofNat]
  omega

theorem State.dmaAbortWord_toNat (s : State) : s.dmaAbortWord.toNat = s.dma.abortPending.toNat := by
  rw [State.dmaAbortWord, zero_append_toNat 31, BitVec.toNat_ofBool]

theorem State.encPalLenWord_toNat (s : State) : s.encPalLenWord.toNat = s.enc.palLen.toNat :=
  zero_append_toNat 23 s.enc.palLen

theorem State.encFgWord_toNat (s : State) : s.encFgWord.toNat = s.enc.fg.toNat := zero_append_toNat 8 s.enc.fg

theorem State.encBgWord_toNat (s : State) : s.encBgWord.toNat = s.enc.bg.toNat := zero_append_toNat 8 s.enc.bg

/-- Settles O17: each read returns its register's word, whose value is its fields at their places. -/
theorem dmaAndOperandReadsReturnTheirRegister : Obligations.DmaAndOperandReadsReturnTheirRegister := by
  refine ⟨?addr, ?count, ?ctrl, ?abort, ?src, ?dst, ?encCount, ?pal, ?palLen, ?fg, ?bg, ?dim⟩
  case addr => exact readsAs_of_register .dmaAddr (·.dma.addr) rfl rfl (fun _ => rfl) fun _ => rfl
  case count => exact readsAs_of_register .dmaCount (·.dma.count) rfl rfl (fun _ => rfl) fun _ => rfl
  case ctrl =>
    refine readsAs_of_register .dmaCtrl State.dmaCtrlWord rfl rfl (fun _ => rfl) fun s => ?_
    rw [s.dmaCtrlWord_toNat]
    cases s.dma.qsel with
    | tx e => rw [engineIndex_eq_qselBits]
    | rx => rfl
  case abort => exact readsAs_of_register .dmaAbort State.dmaAbortWord rfl rfl (fun _ => rfl) State.dmaAbortWord_toNat
  case src => exact readsAs_of_register .encSrc (·.enc.src) rfl rfl (fun _ => rfl) fun _ => rfl
  case dst => exact readsAs_of_register .encDst (·.enc.dst) rfl rfl (fun _ => rfl) fun _ => rfl
  case encCount => exact readsAs_of_register .encCount (·.enc.count) rfl rfl (fun _ => rfl) fun _ => rfl
  case pal => exact readsAs_of_register .encPal (·.enc.pal) rfl rfl (fun _ => rfl) fun _ => rfl
  case palLen =>
    exact readsAs_of_register .encPalLen State.encPalLenWord rfl rfl (fun _ => rfl) State.encPalLenWord_toNat
  case fg => exact readsAs_of_register .encFg State.encFgWord rfl rfl (fun _ => rfl) State.encFgWord_toNat
  case bg => exact readsAs_of_register .encBg State.encBgWord rfl rfl (fun _ => rfl) State.encBgWord_toNat
  case dim => exact readsAs_of_register .encDim (·.enc.dim) rfl rfl (fun _ => rfl) fun _ => rfl

/-! ## The descriptor writes (R231, R234, R237) -/

/-- A DMA_CTRL row fixes bit 0 of DATA, which tells the submission from the store (R112). -/
theorem encodes_dmaCtrl {m : AccessWord} (b : Bool) (hm : m &&& 0xFFFF00000000#48 = writeWord .dmaCtrl 0#32)
    (hb : bitAt m 0 = b) :
    Encodes m 0xFFFF00000001#48 fun d =>
      if b then .wDmaCtrlSubmit (slice d 1 2) (bitAt d 3) (slice d 4 3)
      else .wDmaCtrlSet (slice d 1 2) (bitAt d 3) (slice d 4 3) := by
  refine encodes_of_register .dmaCtrl hm (by decide) fun d hd => ?_
  have hbit : bitAt d 0 = b := (bit_of_mask hd 0 (by decide)).trans (by simpa [bitAt, slice] using hb)
  rw [decodeWrite_dmaCtrl, hbit]

theorem State.descriptorWrite_of_busy {s : State} (h : s.dma.busy = true) (d : Dma) :
    s.descriptorWrite d = s.raise .dmaBusy := if_pos h

theorem State.descriptorWrite_of_idle {s : State} (h : s.dma.busy = false) (d : Dma) :
    s.descriptorWrite d = { s with dma := d } := if_neg (by simp [h])

section CtrlWrites

variable {s : State} {size : BitVec 2} {incr : Bool} {qsel : BitVec 3} {sz : AccessSize} {q : QSel}

theorem exec_dmaSet_of_busy (hbusy : s.dma.busy = true) :
    exec (.wDmaCtrlSet size incr qsel) s = .next (s.raise .dmaBusy) := congrArg Host.Outcome.next (if_pos hbusy)

theorem exec_dmaSet_of_reserved (hidle : s.dma.busy = false) (hfields : dmaFields size qsel = none) :
    exec (.wDmaCtrlSet size incr qsel) s = .next (s.raise .reservedValue) := by
  refine congrArg Host.Outcome.next ((if_neg (by simp [hidle])).trans ?_)
  rw [hfields]

theorem exec_dmaSet_of_fields (hidle : s.dma.busy = false) (hfields : dmaFields size qsel = some (sz, q)) :
    exec (.wDmaCtrlSet size incr qsel) s =
      .next { s with dma := { s.dma with size := sz, incr := incr, qsel := q } } := by
  refine congrArg Host.Outcome.next ((if_neg (by simp [hidle])).trans ?_)
  rw [hfields]

/-! ## A submission (R233) -/

theorem exec_submit_of_busy (hbusy : s.dma.busy = true) :
    exec (.wDmaCtrlSubmit size incr qsel) s = .next (s.raise .dmaBusy) := congrArg Host.Outcome.next (if_pos hbusy)

theorem exec_submit_of_reserved (hidle : s.dma.busy = false) (hfields : dmaFields size qsel = none) :
    exec (.wDmaCtrlSubmit size incr qsel) s = .next (s.raise .reservedValue) := by
  refine congrArg Host.Outcome.next ((if_neg (by simp [hidle])).trans ?_)
  rw [hfields]

theorem exec_submit_of_fields (hidle : s.dma.busy = false) (hfields : dmaFields size qsel = some (sz, q)) :
    exec (.wDmaCtrlSubmit size incr qsel) s = .next
      (if s.cfg.configured = false then s.raise .notConfigured
       else if q = .tx .cw ∧ s.winBusy = true then s.raise .queueConflict
       else ({ s with dma.size := sz, dma.incr := incr, dma.qsel := q } : State).dmaStart) := by
  refine congrArg Host.Outcome.next ((if_neg (by simp [hidle])).trans ?_)
  rw [hfields]

theorem exec_submit_of_unconfigured (hidle : s.dma.busy = false) (hfields : dmaFields size qsel = some (sz, q))
    (hun : s.cfg.configured = false) :
    exec (.wDmaCtrlSubmit size incr qsel) s = .next (s.raise .notConfigured) := by
  rw [exec_submit_of_fields hidle hfields, if_pos hun]

theorem exec_submit_of_conflict (hidle : s.dma.busy = false) (hfields : dmaFields size qsel = some (sz, q))
    (hconfigured : s.cfg.configured = true) (hconflict : q = .tx .cw ∧ s.winBusy = true) :
    exec (.wDmaCtrlSubmit size incr qsel) s = .next (s.raise .queueConflict) := by
  rw [exec_submit_of_fields hidle hfields, if_neg (by simp [hconfigured]), if_pos hconflict]

theorem exec_submit_of_free (hidle : s.dma.busy = false) (hfields : dmaFields size qsel = some (sz, q))
    (hconfigured : s.cfg.configured = true) (hfree : ¬(q = .tx .cw ∧ s.winBusy = true)) :
    exec (.wDmaCtrlSubmit size incr qsel) s =
      .next ({ s with dma.size := sz, dma.incr := incr, dma.qsel := q } : State).dmaStart := by
  rw [exec_submit_of_fields hidle hfields, if_neg (by simp [hconfigured]), if_neg hfree]

end CtrlWrites

/-- Settles O28: a busy channel faults each write, an idle one stores what `dmaFields` says of the operands. -/
theorem descriptorWritesStoreWhileIdle : Obligations.DescriptorWritesStoreWhileIdle := by
  refine ⟨?addr, ?count, ?set, fun s d size incr qsel => ⟨fun hbusy i hi => ?busy, fun hidle => ?idle⟩⟩
  case addr => exact encodes_of_register .dmaAddr (by decide) (by decide) fun _ _ => rfl
  case count => exact encodes_of_register .dmaCount (by decide) (by decide) fun _ _ => rfl
  case set => exact encodes_dmaCtrl false (by decide) (by decide)
  case busy =>
    have hfault : ∀ d, s.descriptorWrite d = s.raise .dmaBusy := State.descriptorWrite_of_busy hbusy
    simp only [List.mem_cons, List.not_mem_nil, or_false] at hi
    rcases hi with rfl | rfl | rfl
    · exact congrArg _ (hfault _)
    · exact congrArg _ (hfault _)
    · exact exec_dmaSet_of_busy hbusy
  case idle =>
    have hstore : ∀ d, s.descriptorWrite d = { s with dma := d } := State.descriptorWrite_of_idle hidle
    refine ⟨congrArg _ (hstore _), congrArg _ (hstore _), fun hreserved => ?_, fun hstored => ?_⟩
    · exact exec_dmaSet_of_reserved hidle (dmaFields_reserved size qsel hreserved)
    · obtain ⟨sz, q, hfields, -, hbytes, -, htx, hrx⟩ := dmaFields_stored size qsel hstored
      exact ⟨sz, q, hbytes, htx, hrx, exec_dmaSet_of_fields hidle hfields⟩

/-! ## The start of a transfer (R233, R245) -/

theorem State.dmaStart_of_empty {s : State} (h : s.dma.count = 0#32) : s.dmaStart = s.reportDma .ok := if_pos h

/-- The check of R83 as bytes of memory. -/
theorem State.dmaStart_of_bad {s : State} (hcount : s.dma.count ≠ 0#32)
    (hbad : s.dma.addr.toNat % sizeBytes s.dma.size ≠ 0 ∨ ¬InMemory s.params (dmaRange s.dma)) :
    s.dmaStart = s.reportDma .addressError := by
  rw [inMemory_iff, Bool.not_eq_true] at hbad
  exact (if_neg hcount).trans (if_pos hbad)

theorem State.dmaStart_of_good {s : State} (hcount : s.dma.count ≠ 0#32)
    (haligned : s.dma.addr.toNat % sizeBytes s.dma.size = 0) (hrange : InMemory s.params (dmaRange s.dma)) :
    s.dmaStart =
      { s with
        dma :=
          { s.dma with
            lo := (dmaRange s.dma).start, hi := (dmaRange s.dma).start + (dmaRange s.dma).len, err := .ok,
            busy := true, abortPending := false, grace := false } } := by
  rw [inMemory_iff] at hrange
  exact (if_neg hcount).trans (if_neg (by simp [haligned, hrange]))

/-- Settles O29: the checks in their order, then the start of the transfer with the fields stored. -/
theorem submitStartsTheTransfer : Obligations.SubmitStartsTheTransfer := by
  refine ⟨encodes_dmaCtrl true (by decide) (by decide), fun s size incr qsel =>
    ⟨exec_submit_of_busy, ?reserved, ?unconfigured, ?configured⟩⟩
  case reserved => exact fun hidle hreserved => exec_submit_of_reserved hidle (dmaFields_reserved size qsel hreserved)
  case unconfigured =>
    intro hidle hstored hun
    obtain ⟨sz, q, hfields, -⟩ := dmaFields_stored size qsel hstored
    exact exec_submit_of_unconfigured hidle hfields hun
  case configured =>
    intro hidle hstored hconfigured
    obtain ⟨sz, q, hfields, -, hbytes, -, htx, hrx⟩ := dmaFields_stored size qsel hstored
    have hconflict : q = .tx .cw ∧ s.winBusy = true ↔ qsel = 0#3 ∧ s.win.pending ≠ [] := by
      have hcw : qsel.toNat = engineIndex .cw ↔ qsel = 0#3 := BitVec.toNat_inj (y := 0#3)
      rw [htx, hcw]
      simp [State.winBusy]
    constructor
    · exact fun hcw hpending => exec_submit_of_conflict hidle hfields hconfigured (hconflict.2 ⟨hcw, hpending⟩)
    · intro hfree
      have hgo := exec_submit_of_free (incr := incr) hidle hfields hconfigured fun h => by
        obtain ⟨hcw, hpending⟩ := hconflict.1 h
        exact hfree.elim (· hcw) hpending
      refine ⟨sz, q, hbytes, htx, hrx, fun hempty => ?_, fun hcount => ⟨fun hbad => ?_, fun haligned hrange => ?_⟩⟩
      · exact hgo.trans (congrArg _ (State.dmaStart_of_empty hempty))
      · exact hgo.trans (congrArg _ (State.dmaStart_of_bad hcount hbad))
      · exact hgo.trans (congrArg _ (State.dmaStart_of_good hcount haligned hrange))

end Sys2Proof.Machine
end

section
/-! SUPPORT. A fill (46_upward_interface R358): the DMA and DWT in turns, each pair of steps one pixel on the bus; with
it the statement FillRepeatsItsPixel. -/

namespace Sys2Proof.Machine

/-- A run that goes on, with DWT active and its queue empty, a 32-bit fixed-source transfer into it with `n` units left,
and the next `n` pairs of turns the DMA's and DWT's. -/
structure FillTurns (n : Nat) (s : State) : Prop where
  faults : s.faults = []
  refused : s.refused = none
  enable : s.eng.enable = 4#4
  room : 1 ≤ s.params.qDepth
  queue : s.eng.txqDwt = []
  busy : s.dma.busy = decide (n ≠ 0)
  unaborted : s.dma.abortPending = false
  qsel : s.dma.qsel = .tx .dwt
  size : s.dma.size = .b4
  fixed : s.dma.incr = false
  count : s.dma.count.toNat = n
  sched : ∃ rest, s.world.sched = (List.replicate n [Turn.dmaUnit, Turn.engine .dwt]).flatten ++ rest

/-- The DMA's turn queues the pixel. -/
theorem FillTurns.step_unit {n : Nat} {s : State} (h : FillTurns (n + 1) s) :
    step s = .next { s.tick with eng.txqDwt := [s.mem.readLE s.dma.addr 4], dma := dmaAfterUnit s.dma } := by
  obtain ⟨rest, hsched⟩ := h.sched
  have hturn : s.nextTurn = .dmaUnit := by simp [State.nextTurn, hsched, List.replicate_succ]
  have hcount : s.dma.count ≠ 0#32 := fun hzero => by simpa [hzero] using h.count
  obtain ⟨hmove, -⟩ :=
    dmaUnitStepMovesOneUnit s h.faults h.refused hturn (by simp [h.busy]) hcount (.inl h.unaborted)
  have hempty : s.txq .dwt = [] := h.queue
  have hpixel : s.txq .dwt ++ [s.mem.readLE s.dma.addr (sizeBytes s.dma.size)] = [s.mem.readLE s.dma.addr 4] := by
    rw [hempty, h.size]
    rfl
  refine (hmove .dwt h.qsel (by rw [hempty]; exact h.room)).trans ?_
  rw [hpixel]
  rfl

/-- DWT's turn puts the queued word on the bus (R194). -/
theorem step_dwt {s : State} {w : Word} (hfaults : s.faults = []) (hrefused : s.refused = none)
    (henable : s.eng.enable = 4#4) (hturn : s.nextTurn = .engine .dwt) (hqueue : s.eng.txqDwt = [w]) :
    step s = .next
      { s.tick with
        eng.txqDwt := []
        pins := { s.pins with d := slice w 0 8, dc := true, wr := true }
        trace := s.trace ++ dwtEvents w } := by
  have hactive : s.active .dwt = true := by rw [State.active, henable]; decide
  obtain ⟨-, -, hdwt, -⟩ := engineStepRunsItsUnit s hfaults hrefused
  obtain ⟨-, -, hunit⟩ := writeUnitsBecomeWriteCycles s.tick w []
  exact (hdwt w [] hturn hactive hqueue).trans (hunit hactive hqueue _ _ _)

/-- A unit of a fixed-source transfer with no abort pending: one unit fewer is left, and the last one ends it. -/
theorem dmaAfterUnit_of_fixed {d : Dma} {n : Nat} (hfixed : d.incr = false) (hbusy : d.busy = true)
    (hunaborted : d.abortPending = false) (hcount : d.count.toNat = n + 1) :
    (dmaAfterUnit d).addr = d.addr ∧ (dmaAfterUnit d).count.toNat = n ∧ (dmaAfterUnit d).busy = decide (n ≠ 0) ∧
      (dmaAfterUnit d).abortPending = false ∧ (dmaAfterUnit d).qsel = d.qsel ∧ (dmaAfterUnit d).size = d.size ∧
      (dmaAfterUnit d).incr = false := by
  have hone : d.count = 1#32 ↔ n = 0 := by bv_omega
  have hless : (d.count - 1#32).toNat = n := by bv_omega
  by_cases hlast : n = 0
  · simp [dmaAfterUnit, dmaCounted, hone, hlast, hfixed, hless]
  · simp [dmaAfterUnit, dmaCounted, hone, hlast, hfixed, hless, hbusy, hunaborted]

/-- A pair of turns sends the pixel once and leaves one unit fewer. -/
theorem FillTurns.step_pair {n : Nat} {s : State} (h : FillTurns (n + 1) s) :
    ∃ u t, step s = .next u ∧ step u = .next t ∧ FillTurns n t ∧
      t.trace = s.trace ++ dwtEvents (s.mem.readLE s.dma.addr 4) ∧ t.dma.addr = s.dma.addr ∧ t.mem = s.mem := by
  obtain ⟨rest, hsched⟩ := h.sched
  have hturns : s.world.sched.tail =
      .engine .dwt :: ((List.replicate n [Turn.dmaUnit, Turn.engine .dwt]).flatten ++ rest) := by
    simp [hsched, List.replicate_succ]
  obtain ⟨haddr, hcount, hbusy, hunaborted, hqsel, hsize, hfixed⟩ :=
    dmaAfterUnit_of_fixed h.fixed (by simp [h.busy]) h.unaborted h.count
  refine ⟨_, _, h.step_unit, step_dwt h.faults h.refused h.enable ?turn rfl, ?turns, rfl, haddr, rfl⟩
  case turn => simp [State.nextTurn, hturns]
  case turns =>
    exact
      { faults := h.faults, refused := h.refused, enable := h.enable, room := h.room, queue := rfl, busy := hbusy
        unaborted := hunaborted, qsel := hqsel.trans h.qsel, size := hsize.trans h.size, fixed := hfixed
        count := hcount, sched := ⟨rest, congrArg List.tail hturns⟩ }

/-- The whole fill, by the units left. -/
theorem FillTurns.run {n : Nat} {s : State} (h : FillTurns n s) :
    ∃ t, runSteps (2 * n) s = .next t ∧ FillTurns 0 t ∧
      t.trace = s.trace ++ (List.replicate n (dwtEvents (s.mem.readLE s.dma.addr 4))).flatten ∧ t.mem = s.mem := by
  induction n generalizing s with
  | zero => exact ⟨s, rfl, h, by simp, rfl⟩
  | succ n ih =>
    obtain ⟨u, v, hstepU, hstepV, hturns, htrace, haddr, hmem⟩ := h.step_pair
    obtain ⟨t, hrun, hend, htraceT, hmemT⟩ := ih hturns
    refine ⟨t, ?_, hend, ?_, hmemT.trans hmem⟩
    · rw [Nat.mul_succ, runSteps_succ hstepU, runSteps_succ hstepV, hrun]
    · rw [htraceT, htrace, haddr, hmem, List.replicate_succ, List.flatten_cons, List.append_assoc]

/-- Settles O48: with no unit left the channel is idle and the queue is empty. -/
theorem fillRepeatsItsPixel : Obligations.FillRepeatsItsPixel := by
  intro s n rest hfaults hrefused henable hroom hqueue hbusy hunaborted hqsel hsize hfixed hcount hpos hsched
  have hturns : FillTurns n s :=
    ⟨hfaults, hrefused, henable, hroom, hqueue, by simp [hbusy, hpos], hunaborted, hqsel, hsize, hfixed, hcount,
      rest, hsched⟩
  obtain ⟨t, hrun, hend, htrace, hmem⟩ := hturns.run
  exact ⟨t, hrun, htrace, by simp [hend.busy], BitVec.eq_of_toNat_eq hend.count, hend.queue, hmem⟩

end Sys2Proof.Machine
end

section
/-! SUPPORT. The encoder's registers and the forms of an ENC_CTRL write (44_pixel_encoding R272 to R290, R304; 45_window
R324 to R332): the words of the control and window reads, the rows of ENC_CTRL as an OP, and the checks of a START one by
one; with them the statements ControlAndWindowReadsReturnTheirRegister, EncoderRegistersAreLatches,
ReservedOpsReportUnsupportedFormat and EncoderStartChecksInOrder. -/

namespace Sys2Proof.Machine

open Sys2Proof.Laws

/-! ## The words the reads return (R273, R274, R324, R330, R332) -/

theorem State.encCtrlWord_toNat (s : State) :
    s.encCtrlWord.toNat =
      s.enc.op.toNat + s.enc.bpp.toNat * 2 ^ 4 + s.enc.mode.toNat * 2 ^ 8 + s.enc.tdir.toNat * 2 ^ 10 := by
  simp only [State.encCtrlWord, append_toNat, BitVec.toNat_ofBool, BitVec.toNat_ofNat]
  omega

theorem State.encStatusWord_toNat (s : State) : s.encStatusWord.toNat = errNumber s.enc.err :=
  (zero_append_toNat 24 _).trans (errByte_toNat _)

theorem State.winBusy_toNat (s : State) : s.winBusy.toNat = if s.win.pending = [] then 0 else 1 := by
  unfold State.winBusy
  cases s.win.pending <;> rfl

theorem State.winCtrlWord_toNat (s : State) :
    s.winCtrlWord.toNat = s.win.orient.toNat + if s.win.pending = [] then 0 else 2 ^ 30 := by
  simp only [State.winCtrlWord, append_toNat, BitVec.toNat_ofBool, BitVec.toNat_ofNat, s.winBusy_toNat]
  split <;> omega

theorem State.winCmdWord_toNat (s : State) : s.winCmdWord.toNat = s.win.cmd.toNat := zero_append_toNat 8 s.win.cmd

theorem State.winStatusWord_toNat (s : State) : s.winStatusWord.toNat = errNumber s.win.err :=
  (zero_append_toNat 24 _).trans (errByte_toNat _)

/-- Settles O18: each read returns its register's word, whose value is its fields at their places. -/
theorem controlAndWindowReadsReturnTheirRegister : Obligations.ControlAndWindowReadsReturnTheirRegister := by
  refine ⟨?ctrl, ?status, ?x, ?y, ?winCtrl, ?cmd, ?winStatus⟩
  case ctrl => exact readsAs_of_register .encCtrl State.encCtrlWord rfl rfl (fun _ => rfl) State.encCtrlWord_toNat
  case status =>
    exact readsAs_of_register .encStatus State.encStatusWord rfl rfl (fun _ => rfl) State.encStatusWord_toNat
  case x => exact readsAs_of_register .winX (·.win.x) rfl rfl (fun _ => rfl) fun _ => rfl
  case y => exact readsAs_of_register .winY (·.win.y) rfl rfl (fun _ => rfl) fun _ => rfl
  case winCtrl => exact readsAs_of_register .winCtrl State.winCtrlWord rfl rfl (fun _ => rfl) State.winCtrlWord_toNat
  case cmd => exact readsAs_of_register .winCmd State.winCmdWord rfl rfl (fun _ => rfl) State.winCmdWord_toNat
  case winStatus =>
    exact readsAs_of_register .winStatus State.winStatusWord rfl rfl (fun _ => rfl) State.winStatusWord_toNat

/-! ## The forms of an ENC_CTRL write (R112, R114, R304) -/

/-- A row whose mask fixes START = 1 encodes the form of the OPs that have the row's fixed OP bits. -/
theorem encodes_encStart {m k : AccessWord} {f : BitVec 4 → BitVec 4 → BitVec 2 → Bool → Instr}
    (hm : m &&& 0xFFFF00000000#48 = writeWord .encCtrl 0#32) (hk : k &&& 0xFFFF00000000#48 = 0xFFFF00000000#48)
    (hstart : bitAt (slice k 0 32) 31 = true ∧ bitAt (slice m 0 32) 31 = true)
    (hop : ∀ op, op &&& slice k 0 4 = slice m 0 4 → encStart op = f op) :
    Encodes m k fun d => f (slice d 0 4) (slice d 4 4) (slice d 8 2) (bitAt d 10) := by
  refine encodes_of_register .encCtrl hm hk fun d hd => ?_
  have hbit : bitAt d 31 = true := (bit_of_mask hd 31 hstart.1).trans hstart.2
  have hfield : slice d 0 4 &&& slice k 0 4 = slice m 0 4 := by
    have := congrArg (slice · 0 4) hd
    simpa [slice, BitVec.extractLsb'_and, BitVec.extractLsb'_extractLsb'_of_le] using this
  rw [decodeWrite_encCtrl, if_pos hbit, hop _ hfield]

/-- The row of a single OP. -/
theorem encodes_encStart_of_op (op : BitVec 4) {m : AccessWord}
    (hm : m = writeWord .encCtrl (encCtrlData true op 0#4 0#2 false)) :
    Encodes m 0xFFFF8000000F#48 fun d => encStart op (slice d 4 4) (slice d 8 2) (bitAt d 10) := by
  subst hm
  refine encodes_encStart (f := fun _ => encStart op) ?_ (by decide) ⟨by decide, ?_⟩ fun op' hop' => ?_
  · revert op; decide
  · rw [writeWord_data, encCtrlData_start]
  · have hall : ∀ op op' : BitVec 4,
        op' &&& slice 0xFFFF8000000F#48 0 4 = slice (writeWord .encCtrl (encCtrlData true op 0#4 0#2 false)) 0 4 →
          op' = op := by decide
    rw [hall op op' hop']

/-- The row of ENC_CTRL without START. -/
theorem encodes_encCtrlSet :
    Encodes 0x10E000000000#48 0xFFFF80000000#48 fun d =>
      .wEncCtrlSet (slice d 0 4) (slice d 4 4) (slice d 8 2) (bitAt d 10) := by
  refine encodes_of_register .encCtrl (by decide) (by decide) fun d hd => ?_
  have hbit : bitAt d 31 = false := (bit_of_mask hd 31 (by decide)).trans (by decide)
  rw [decodeWrite_encCtrl, hbit]
  rfl

/-- Settles O33: each write's meaning stores its operands; the colours and the dimensions are the register put together
again from its fields. -/
theorem encoderRegistersAreLatches : Obligations.EncoderRegistersAreLatches := by
  refine ⟨?src, ?dst, ?count, ?pal, ?palLen, ?fg, ?bg, ?dim, encodes_encCtrlSet, fun s d => ?stores⟩
  case src => exact encodes_of_register .encSrc (by decide) (by decide) fun _ _ => rfl
  case dst => exact encodes_of_register .encDst (by decide) (by decide) fun _ _ => rfl
  case count => exact encodes_of_register .encCount (by decide) (by decide) fun _ _ => rfl
  case pal => exact encodes_of_register .encPal (by decide) (by decide) fun _ _ => rfl
  case palLen => exact encodes_of_register .encPalLen (by decide) (by decide) fun _ _ => rfl
  case fg => exact encodes_of_register .encFg (by decide) (by decide) fun _ _ => rfl
  case bg => exact encodes_of_register .encBg (by decide) (by decide) fun _ _ => rfl
  case dim => exact encodes_of_register .encDim (by decide) (by decide) fun _ _ => rfl
  case stores =>
    refine ⟨rfl, rfl, rfl, rfl, rfl, ?_, ?_, ?_, fun _ _ _ _ => rfl⟩
    · exact congrArg (fun c : BitVec 24 => Host.Outcome.next { s with enc.fg := c }) (append_bytes3 d)
    · exact congrArg (fun c : BitVec 24 => Host.Outcome.next { s with enc.bg := c }) (append_bytes3 d)
    · exact congrArg (fun c : Word => Host.Outcome.next { s with enc.dim := c }) (append_halves d)

/-! ## The checks of an encoder START (R271, R408) -/

section Start

variable {s : State} {op bpp : BitVec 4} {mode : BitVec 2} {tdir : Bool} {job : EncJob}

theorem State.startEncoder_of_badFormat (hformat : job.formatOk = false) :
    (s.encStore op bpp mode tdir).startEncoder job =
      { s with enc := encAfter s op bpp mode tdir .unsupportedPixelFormat } := if_pos hformat

theorem State.startEncoder_of_badRange (hformat : job.formatOk = true)
    (hrange : ∃ r ∈ job.dst :: job.inputs, ¬InMemory s.params r) :
    (s.encStore op bpp mode tdir).startEncoder job = { s with enc := encAfter s op bpp mode tdir .addressError } := by
  have hbad : (s.encStore op bpp mode tdir).encRangesOk job.inputs job.dst = false := by
    rw [← Bool.not_eq_true, State.encRangesOk_iff]
    push Not
    exact hrange
  exact (if_neg (by simp [hformat])).trans (if_pos hbad)

theorem State.startEncoder_of_race (hformat : job.formatOk = true)
    (hrange : ∀ r ∈ job.dst :: job.inputs, InMemory s.params r) (hrace : EncRaces s job.inputs job.dst) :
    (s.encStore op bpp mode tdir).startEncoder job =
      ({ s with enc := encAfter s op bpp mode tdir s.enc.err } : State).raise .bufferRace := by
  have hok : (s.encStore op bpp mode tdir).encRangesOk job.inputs job.dst = true :=
    (State.encRangesOk_iff _ _ _).2 hrange
  have hraces : (s.encStore op bpp mode tdir).encRace job.inputs job.dst = true := (State.encRace_iff _ _ _).2 hrace
  exact (if_neg (by simp [hformat])).trans ((if_neg (by simp [hok])).trans (if_pos hraces))

theorem State.startEncoder_of_badPalette (hformat : job.formatOk = true) (hadmits : EncAdmits s job.inputs job.dst)
    (hpalette : job.paletteOk = false) :
    (s.encStore op bpp mode tdir).startEncoder job = { s with enc := encAfter s op bpp mode tdir .paletteRange } :=
  (s.startEncoder_admitted op bpp mode tdir job hformat hadmits).trans (if_neg (by simp [hpalette]))

theorem State.startEncoder_of_passed (hformat : job.formatOk = true) (hadmits : EncAdmits s job.inputs job.dst)
    (hpalette : job.paletteOk = true) :
    (s.encStore op bpp mode tdir).startEncoder job =
      { s with mem := s.mem.fill job.dst.start job.out job.dst.len, enc := encAfter s op bpp mode tdir .ok } :=
  (s.startEncoder_admitted op bpp mode tdir job hformat hadmits).trans (if_pos hpalette)

end Start

/-- Settles O35: a reserved OP fails the format check, which is the first. -/
theorem reservedOpsReportUnsupportedFormat : Obligations.ReservedOpsReportUnsupportedFormat := by
  refine ⟨encodes_encStart_of_op 5#4 rfl, ?six, ?eight, fun s op bpp mode tdir => ⟨?_, ?_, ?_⟩⟩
  case six =>
    refine encodes_encStart (f := .wEncCtrlReserved2) (by decide) (by decide) (by decide) fun op hop => ?_
    have hsix : op = 6#4 ∨ op = 7#4 := by revert op; decide
    rcases hsix with rfl | rfl <;> rfl
  case eight =>
    refine encodes_encStart (f := .wEncCtrlReserved3) (by decide) (by decide) (by decide) fun op hop => ?_
    have hle : 8#4 ≤ op := by revert op; decide
    funext bpp mode tdir
    exact encStart_of_eight_le hle bpp mode tdir
  all_goals exact congrArg Host.Outcome.next (State.startEncoder_of_badFormat rfl)

/-! ## What a job writes, and what INDEXED's job checks (R295, R296, R306) -/

theorem Memory.read_fill_of_outside (m : Memory) {dst n a : Nat} (out : Nat → Option Byte)
    (h : a < dst ∨ dst + n ≤ a) : (m.fill dst out n).read a = m.read a := by
  rw [Memory.read_fill, if_neg (by omega)]

/-- `idx(k)` as the quotient and remainder that are the N bits of the pixel (R296). -/
theorem pixelIndex_eq (m : Memory) (src n k : Nat) :
    pixelIndex m src n k = (m.read (src + k * n / 8)).toNat / 2 ^ (8 - n - k * n % 8) % 2 ^ n := by
  rw [pixelIndex, Nat.one_shiftLeft, Nat.and_two_pow_sub_one_eq_mod, Nat.shiftRight_eq_div_pow]

theorem indexedJob_formatOk_iff (e : Enc) (m : Memory) :
    (indexedJob e m).formatOk = true ↔ e.bpp ∈ [1#4, 2#4, 4#4, 8#4] := by
  simp [indexedJob, or_assoc]

theorem indexedJob_paletteOk_iff (e : Enc) (m : Memory) :
    (indexedJob e m).paletteOk = true ↔
      ∀ k < e.count.toNat, pixelIndex m e.src.toNat e.bpp.toNat k < palEntries e := by
  simp [indexedJob]

/-- Settles O34: each OP's START is one run of `startEncoder()` on its job, whose ranges are those of R306; only INDEXED
can fail the format and the palette check. -/
theorem encoderStartChecksInOrder : Obligations.EncoderStartChecksInOrder := by
  intro s bpp mode tdir src dst n len w h cols rows idx p hp op go inputs out after
  have hidx : ∀ k, pixelIndex s.mem src bpp.toNat k = idx k := pixelIndex_eq s.mem src bpp.toNat
  obtain ⟨job, hgo, hinputs, hdst, hformat, hpalette⟩ : ∃ job : EncJob,
      go = .next ((s.encStore op bpp mode tdir).startEncoder job) ∧ job.inputs = inputs ∧ job.dst = out ∧
      (job.formatOk = true ↔ op ≠ 1#4 ∨ bpp ∈ [1#4, 2#4, 4#4, 8#4]) ∧
      (job.paletteOk = true ↔ op ≠ 1#4 ∨ ∀ k < n, idx k < len) := by
    have hother : ∀ c : BitVec 4, c ≠ 1#4 → ∀ q : Prop, true = true ↔ c ≠ 1#4 ∨ q :=
      fun _ hne _ => iff_of_true rfl (.inl hne)
    simp only [List.mem_cons, List.not_mem_nil, or_false] at hp
    rcases hp with hp | hp | hp | hp | hp <;> subst hp
    · exact ⟨rgb565Job (s.encStore 0#4 bpp mode tdir).enc s.mem, rfl, rfl, rfl, hother 0#4 (by decide) _,
        hother 0#4 (by decide) _⟩
    · refine ⟨indexedJob (s.encStore 1#4 bpp mode tdir).enc s.mem, rfl, rfl, rfl, ?_, ?_⟩
      · rw [indexedJob_formatOk_iff]
        exact (or_iff_right fun hne => hne rfl).symm
      · rw [indexedJob_paletteOk_iff]
        refine Iff.trans ?_ (or_iff_right fun hne => hne rfl).symm
        exact forall₂_congr fun k _ => by rw [← hidx]; rfl
    · exact ⟨glyphJob (s.encStore 2#4 bpp mode tdir).enc s.mem, rfl, rfl, rfl, hother 2#4 (by decide) _,
        hother 2#4 (by decide) _⟩
    · exact ⟨bitrevJob (s.encStore 3#4 bpp mode tdir).enc s.mem, rfl, rfl, rfl, hother 3#4 (by decide) _,
        hother 3#4 (by decide) _⟩
    · exact ⟨transposeJob (s.encStore 4#4 bpp mode tdir).enc s.mem, rfl, rfl, rfl, hother 4#4 (by decide) _,
        hother 4#4 (by decide) _⟩
  rw [hgo, ← hinputs, ← hdst]
  refine ⟨fun ⟨hop, hbpp⟩ => ?format, fun hok => ?formatOk⟩
  case format =>
    refine congrArg _ (State.startEncoder_of_badFormat ?_)
    rw [← Bool.not_eq_true, hformat]
    exact not_or.2 ⟨not_not.2 hop, hbpp⟩
  case formatOk =>
    have hok := hformat.2 hok
    refine ⟨fun hbad => congrArg _ (State.startEncoder_of_badRange hok hbad), fun hrange =>
      ⟨fun hrace => congrArg _ (State.startEncoder_of_race hok hrange hrace), fun hfree =>
        ⟨fun ⟨hop, k, hk, hpast⟩ => ?palette, fun hwithin => ?passed⟩⟩⟩
    case palette =>
      refine congrArg _ (State.startEncoder_of_badPalette hok ⟨hrange, hfree⟩ ?_)
      rw [← Bool.not_eq_true, hpalette]
      exact not_or.2 ⟨not_not.2 hop, fun hall => Nat.not_lt.2 hpast (hall k hk)⟩
    case passed =>
      exact ⟨_, congrArg _ (State.startEncoder_of_passed hok ⟨hrange, hfree⟩ (hpalette.2 hwithin)), fun a ha =>
        Memory.read_fill_of_outside s.mem job.out ha⟩

end Sys2Proof.Machine
end

section
/-! SUPPORT. The pixel transforms (44_pixel_encoding R292 to R298): the three bytes of a pixel in the buffer an operation
fills, and the packed 5-6-5 format bit by bit; with them the statements Rgb565ExpandsEachPixel,
IndexedLooksUpThePalette, GlyphAppliesItsMode and PackAndExpandRoundTrip. -/

namespace Sys2Proof.Machine

open Sys2Proof.Laws

/-! ## Three bytes a pixel -/

/-- A byte in the range of a fill: the one written, or the old one where nothing is written. -/
theorem Memory.read_fill_at (m : Memory) (dst : Nat) (out : Nat → Option Byte) {n i : Nat} (hi : i < n) :
    (m.fill dst out n).read (dst + i) = (out i).getD (m.read (dst + i)) := by
  rw [Memory.read_fill, if_pos (by omega), Nat.add_sub_cancel_left]

/-- Byte `j` of pixel `k` is byte `3k + j` of the buffer. -/
theorem Memory.read_fill_pixel (m : Memory) (dst : Nat) (out : Nat → Option Byte) {n k j : Nat} (hk : k < n)
    (hj : j < 3) :
    (m.fill dst out (3 * n)).read (dst + 3 * k + j) = (out (3 * k + j)).getD (m.read (dst + 3 * k + j)) := by
  rw [Nat.add_assoc]
  exact Memory.read_fill_at m dst out (by omega)

theorem pixel_of_byte (k : Nat) {j : Nat} (hj : j < 3) : (3 * k + j) / 3 = k ∧ (3 * k + j) % 3 = j := by omega

/-- A buffer filled with the channels of the colours `px` holds them in wire order. -/
theorem Memory.read_fill_channel (m : Memory) (dst : Nat) (px : Nat → Rgb) {n k j : Nat} (hk : k < n) (hj : j < 3) :
    (m.fill dst (fun i => some (channel (px (i / 3)) (i % 3))) (3 * n)).read (dst + 3 * k + j) = channel (px k) j := by
  obtain ⟨hdiv, hmod⟩ := pixel_of_byte k hj
  rw [Memory.read_fill_pixel m dst _ hk hj, hdiv, hmod, Option.getD_some]

/-! ## RGB565 (R292, R293) -/

/-- Pixel `k` of the source of an RGB565 operation. -/
def rgb565Pixel (m : Memory) (src k : Nat) : Rgb := rgb565 (m.read (src + 2 * k)) (m.read (src + 2 * k + 1))

theorem rgb565Job_out (e : Enc) (m : Memory) :
    (rgb565Job e m).out = fun i => some (channel (rgb565Pixel m e.src.toNat (i / 3)) (i % 3)) := rfl

/-- Settles O36: the destination is filled with the channels of the expanded pixels. -/
theorem rgb565ExpandsEachPixel : Obligations.Rgb565ExpandsEachPixel := by
  refine ⟨encodes_encStart_of_op 0#4 rfl, ?_⟩
  intro s bpp mode tdir src dst n hadmits
  refine ⟨s.mem.fill dst (rgb565Job s.enc s.mem).out (3 * n), ?started, fun k hk => ?pixel, fun a ha =>
    Memory.read_fill_of_outside s.mem _ ha⟩
  case started =>
    exact congrArg _ (State.startEncoder_of_passed
      (job := rgb565Job (s.encStore 0#4 bpp mode tdir).enc s.mem) rfl hadmits rfl)
  case pixel =>
    have hchannel : ∀ j < 3, (s.mem.fill dst (rgb565Job s.enc s.mem).out (3 * n)).read (dst + 3 * k + j) =
        channel (rgb565Pixel s.mem src k) j := fun j hj => by
      rw [rgb565Job_out]
      exact Memory.read_fill_channel s.mem dst (rgb565Pixel s.mem src) hk hj
    exact ⟨hchannel 0 (by decide), hchannel 1 (by decide), hchannel 2 (by decide)⟩

/-! ## INDEXED (R295, R296) -/

/-- The palette entry of pixel `k` of the source of an INDEXED operation. -/
def indexedPixel (m : Memory) (src pal n k : Nat) : Rgb := paletteEntry m pal (pixelIndex m src n k)

theorem indexedJob_out (e : Enc) (m : Memory) :
    (indexedJob e m).out = fun i =>
      some (channel (indexedPixel m e.src.toNat e.pal.toNat e.bpp.toNat (i / 3)) (i % 3)) := rfl

/-- Settles O37: the destination is filled with the channels of the palette entries of the indices. -/
theorem indexedLooksUpThePalette : Obligations.IndexedLooksUpThePalette := by
  refine ⟨encodes_encStart_of_op 1#4 rfl, ?_⟩
  intro s bpp mode tdir src dst pal n len bits idx
  have hidx : ∀ k, pixelIndex s.mem src bits k = idx k := pixelIndex_eq s.mem src bits
  obtain ⟨job, hjob⟩ : ∃ job, job = indexedJob (s.encStore 1#4 bpp mode tdir).enc s.mem := ⟨_, rfl⟩
  have hexec : exec (.wEncCtrlIndexed bpp mode tdir) s =
      .next ((s.encStore 1#4 bpp mode tdir).startEncoder job) := by rw [hjob]; rfl
  have hformat : job.formatOk = true ↔ bpp ∈ [1#4, 2#4, 4#4, 8#4] := by
    rw [hjob, indexedJob_formatOk_iff]
    rfl
  have hpalette : job.paletteOk = true ↔ ∀ k < n, idx k < len := by
    rw [hjob, indexedJob_paletteOk_iff]
    exact forall₂_congr fun k _ => by rw [← hidx]; rfl
  rw [hexec]
  refine ⟨fun hbpp => ?badFormat, fun hbpp hadmits => ?admitted⟩
  case badFormat =>
    refine congrArg _ (State.startEncoder_of_badFormat ?_)
    rw [← Bool.not_eq_true, hformat]
    exact hbpp
  case admitted =>
    have hadmits : EncAdmits s job.inputs job.dst := hjob ▸ hadmits
    refine ⟨fun ⟨k, hk, hpast⟩ => ?badPalette, fun hwithin =>
      ⟨s.mem.fill job.dst.start job.out job.dst.len, ?passed, fun k hk => ?pixel, fun a ha => ?outside⟩⟩
    case badPalette =>
      refine congrArg _ (State.startEncoder_of_badPalette (hformat.2 hbpp) hadmits ?_)
      rw [← Bool.not_eq_true, hpalette]
      exact fun hall => Nat.not_lt.2 hpast (hall k hk)
    case passed => exact congrArg _ (State.startEncoder_of_passed (hformat.2 hbpp) hadmits (hpalette.2 hwithin))
    case pixel =>
      have hchannel : ∀ j < 3, (s.mem.fill job.dst.start job.out job.dst.len).read (dst + 3 * k + j) =
          channel (indexedPixel s.mem src pal bits k) j := fun j hj => by
        rw [hjob, indexedJob_out]
        exact Memory.read_fill_channel s.mem dst (indexedPixel s.mem src pal bits) hk hj
      rw [← hidx]
      exact ⟨hchannel 0 (by decide), hchannel 1 (by decide), hchannel 2 (by decide)⟩
    case outside => exact Memory.read_fill_of_outside s.mem job.out (hjob ▸ ha)

/-! ## GLYPH (R297, R298) -/

/-- The channels of a colour register, from its most significant byte down (R53). -/
theorem channel_rgbOf (v : BitVec 24) {j : Nat} (hj : j < 3) : channel (rgbOf v) j = slice v (16 - 8 * j) 8 := by
  interval_cases j <;> rfl

/-- R298 for byte `j` of pixel `k`. -/
theorem glyphJob_out (e : Enc) (m : Memory) (k : Nat) {j : Nat} (hj : j < 3) :
    (glyphJob e m).out (3 * k + j) =
      if glyphBit m e.src.toNat k then some (slice e.fg (16 - 8 * j) 8)
      else if e.mode = 1#2 then some (m.read (e.dst.toNat + 3 * k + j) >>> 1)
      else if e.mode = 2#2 then none
      else some (slice e.bg (16 - 8 * j) 8) := by
  obtain ⟨hdiv, hmod⟩ := pixel_of_byte k hj
  simp only [glyphJob, hdiv, hmod, channel_rgbOf _ hj, Nat.add_assoc]

/-- Settles O38: the four cases of R298; in the one that writes nothing the old byte stays. -/
theorem glyphAppliesItsMode : Obligations.GlyphAppliesItsMode := by
  refine ⟨encodes_encStart_of_op 2#4 rfl, ?_⟩
  intro s bpp mode tdir src dst n hadmits
  refine ⟨s.mem.fill dst (glyphJob (s.encStore 2#4 bpp mode tdir).enc s.mem).out (3 * n), ?started,
    fun k hk j hj => ?pixel, fun a ha => Memory.read_fill_of_outside s.mem _ ha⟩
  case started =>
    exact congrArg _ (State.startEncoder_of_passed
      (job := glyphJob (s.encStore 2#4 bpp mode tdir).enc s.mem) rfl hadmits rfl)
  case pixel =>
    rw [Memory.read_fill_pixel s.mem dst _ hk hj, glyphJob_out _ _ k hj]
    simp only [apply_ite (Option.getD · (s.mem.read (dst + 3 * k + j))), Option.getD_some, Option.getD_none]
    rfl

/-! ## The packed format (R293, R294) -/

/-- The low bits of a channel are lost in the packing; the others come back, green's from both bytes. -/
theorem rgb565_pack565 (r g b : Byte) :
    rgb565 (pack565 ⟨r, g, b⟩).1 (pack565 ⟨r, g, b⟩).2 = ⟨r &&& 0xF8#8, g &&& 0xFC#8, b &&& 0xF8#8⟩ := by
  rw [rgb565, Rgb.mk.injEq]
  refine ⟨BitVec.eq_of_getLsbD_eq ?red, BitVec.eq_of_getLsbD_eq ?green, BitVec.eq_of_getLsbD_eq ?blue⟩
  all_goals
    intro i hi
    interval_cases i <;> simp [pack565]

/-- The expanded channels hold every bit of the two bytes. -/
theorem pack565_rgb565 (b0 b1 : Byte) : pack565 (rgb565 b0 b1) = (b0, b1) := by
  refine Prod.ext (BitVec.eq_of_getLsbD_eq ?first) (BitVec.eq_of_getLsbD_eq ?second)
  all_goals
    intro i hi
    interval_cases i <;> simp [pack565, rgb565]

/-- Settles O42: the two round trips; the formula in the middle is `pack565` itself. -/
theorem packAndExpandRoundTrip : Obligations.PackAndExpandRoundTrip :=
  ⟨rgb565_pack565, fun _ _ _ => rfl, pack565_rgb565⟩

end Sys2Proof.Machine
end

section
/-! SUPPORT. The bitmap transforms (44_pixel_encoding R299 to R303): the bits of a byte put together from its bits, and the
bits of a packed bitmap that is filled line by line; with them the statements BitrevReversesEachByte,
TransposeTurnsTheLayout and TransposedRowsAreGlyphStreams. -/

namespace Sys2Proof.Machine

open Sys2Proof.Laws

/-! ## The bits of a byte (R300, R302) -/

/-- The function's bit 0 is the byte's bit 7. -/
theorem bitAt_byteOfBits (f : Nat → Bool) {b : Nat} (hb : b < 8) : bitAt (byteOfBits f) b = f (7 - b) := by
  unfold byteOfBits
  interval_cases b <;>
    simp (disch := omega) only [bitAt_append_lo, bitAt_append_hi, bitAt_ofBool, Nat.reduceSub]

theorem bitAt_rev8 (v : Byte) {b : Nat} (hb : b < 8) : bitAt (rev8 v) b = bitAt v (7 - b) :=
  bitAt_byteOfBits (bitAt v) hb

/-! ## BITREV (R299, R300) -/

/-- Settles O39: the destination is filled with the reversed bytes. -/
theorem bitrevReversesEachByte : Obligations.BitrevReversesEachByte := by
  refine ⟨encodes_encStart_of_op 3#4 rfl, ?_⟩
  intro s bpp mode tdir src dst n hadmits
  refine ⟨s.mem.fill dst (fun i => some (rev8 (s.mem.read (src + i)))) n, ?started, fun i hi b hb => ?bit,
    fun a ha => Memory.read_fill_of_outside s.mem _ ha⟩
  case started =>
    exact congrArg _ (State.startEncoder_of_passed
      (job := bitrevJob (s.encStore 3#4 bpp mode tdir).enc s.mem) rfl hadmits rfl)
  case bit => rw [Memory.read_fill_at s.mem dst _ hi, Option.getD_some, bitAt_rev8 _ hb]

/-! ## Packed bitmaps (R302) -/

/-- The bytes of a bitmap packed in lines of `stride` bytes: `pix p l` is bit `p` of line `l`, the most significant bit of
each byte first. -/
def packedLines (stride : Nat) (pix : Nat → Nat → Bool) (i : Nat) : Byte :=
  byteOfBits fun j => pix (i % stride * 8 + j) (i / stride)

/-- Bit `p` of line `l` stands in byte `p / 8` of the line. -/
theorem bitAt_packedLines {stride p : Nat} (pix : Nat → Nat → Bool) (l : Nat) (hp : p < 8 * stride) :
    bitAt (packedLines stride pix (l * stride + p / 8)) (7 - p % 8) = pix p l := by
  have hbyte : p / 8 < stride := by omega
  have hmod : (l * stride + p / 8) % stride = p / 8 := by
    rw [Nat.mul_comm, Nat.mul_add_mod, Nat.mod_eq_of_lt hbyte]
  have hdiv : (l * stride + p / 8) / stride = l := by
    rw [Nat.mul_comm, Nat.mul_add_div (by omega), Nat.div_eq_of_lt hbyte, Nat.add_zero]
  rw [packedLines, bitAt_byteOfBits _ (by omega), hmod, hdiv]
  congr 1
  omega

/-- Bit `p` of line `l` of a range filled with a packed bitmap. -/
theorem Memory.bitAt_fill_packedLines (m : Memory) (dst : Nat) {stride lines p l : Nat} (pix : Nat → Nat → Bool)
    (hp : p < 8 * stride) (hl : l < lines) :
    bitAt ((m.fill dst (fun i => some (packedLines stride pix i)) (lines * stride)).read (dst + (l * stride + p / 8)))
      (7 - p % 8) = pix p l := by
  have hin : l * stride + p / 8 < lines * stride := by
    have hline : (l + 1) * stride ≤ lines * stride := Nat.mul_le_mul_right stride hl
    rw [Nat.succ_mul] at hline
    omega
  rw [Memory.read_fill_at m dst _ hin, Option.getD_some, bitAt_packedLines pix l hp]

/-! ## TRANSPOSE (R301, R302) -/

/-- The row-major bitmap of the column-major one at ENC_SRC, 0 past the width. -/
def transposedRows (e : Enc) (m : Memory) (x y : Nat) : Bool :=
  decide (x < dimW e) && pixColumn m e.src.toNat (ceilDiv (dimH e) 8) x y

/-- The column-major bitmap of the row-major one at ENC_SRC, 0 past the height. -/
def transposedColumns (e : Enc) (m : Memory) (y x : Nat) : Bool :=
  decide (y < dimH e) && pixRow m e.src.toNat (ceilDiv (dimW e) 8) x y

theorem transposeJob_out_rows {e : Enc} (m : Memory) (htdir : e.tdir = false) :
    (transposeJob e m).out = fun i => some (packedLines (ceilDiv (dimW e) 8) (transposedRows e m) i) := by
  simp only [transposeJob, htdir]
  rfl

theorem transposeJob_out_columns {e : Enc} (m : Memory) (htdir : e.tdir = true) :
    (transposeJob e m).out = fun i => some (packedLines (ceilDiv (dimH e) 8) (transposedColumns e m) i) := by
  simp only [transposeJob, htdir]
  rfl

/-- Settles O40: the destination is filled with the packed lines of the other layout, whose bits past the width or the
height are 0. -/
theorem transposeTurnsTheLayout : Obligations.TransposeTurnsTheLayout := by
  refine ⟨encodes_encStart_of_op 4#4 rfl, ?_⟩
  intro s bpp mode src dst w h wb hb row col
  refine ⟨fun hadmits => ?rows, fun hadmits => ?columns⟩
  case rows =>
    obtain ⟨out, hout⟩ : ∃ out, out = (transposeJob (s.encStore 4#4 bpp mode false).enc s.mem).out := ⟨_, rfl⟩
    have hbit : ∀ x < 8 * wb, ∀ y < h, row (s.mem.fill dst out (h * wb)) dst x y =
        (decide (x < w) && col s.mem src x y) := fun x hx y hy => by
      rw [hout, transposeJob_out_rows s.mem rfl]
      exact Memory.bitAt_fill_packedLines s.mem dst (transposedRows s.enc s.mem) hx hy
    refine ⟨s.mem.fill dst out (h * wb), ?_, fun x hx y hy => ?_, fun x hx hpad y hy => ?_, fun a ha =>
      Memory.read_fill_of_outside s.mem out ha⟩
    · rw [hout]
      exact congrArg _ (State.startEncoder_of_passed
        (job := transposeJob (s.encStore 4#4 bpp mode false).enc s.mem) rfl hadmits rfl)
    · rw [hbit x (by omega) y hy, decide_eq_true hx, Bool.true_and]
    · rw [hbit x hx y hy, decide_eq_false (Nat.not_lt.2 hpad), Bool.false_and]
  case columns =>
    obtain ⟨out, hout⟩ : ∃ out, out = (transposeJob (s.encStore 4#4 bpp mode true).enc s.mem).out := ⟨_, rfl⟩
    have hbit : ∀ y < 8 * hb, ∀ x < w, col (s.mem.fill dst out (w * hb)) dst x y =
        (decide (y < h) && row s.mem src x y) := fun y hy x hx => by
      rw [hout, transposeJob_out_columns s.mem rfl]
      exact Memory.bitAt_fill_packedLines s.mem dst (transposedColumns s.enc s.mem) hy hx
    refine ⟨s.mem.fill dst out (w * hb), ?_, fun x hx y hy => ?_, fun y hy hpad x hx => ?_, fun a ha =>
      Memory.read_fill_of_outside s.mem out ha⟩
    · rw [hout]
      exact congrArg _ (State.startEncoder_of_passed
        (job := transposeJob (s.encStore 4#4 bpp mode true).enc s.mem) rfl hadmits rfl)
    · rw [hbit y (by omega) x hx, decide_eq_true hy, Bool.true_and]
    · rw [hbit y hy x hx, decide_eq_false (Nat.not_lt.2 hpad), Bool.false_and]

/-! ## The glyph path (R303) -/

/-- A stream that starts at a row reads that row. -/
theorem glyphBit_row (m : Memory) (base wb x y : Nat) : glyphBit m (base + y * wb) x = pixRow m base wb x y := by
  rw [glyphBit, pixRow, Nat.add_assoc]

/-- Rows without padding follow each other in the stream. -/
theorem glyphBit_rows (m : Memory) (base : Nat) {w : Nat} (hw : w % 8 = 0) (x y : Nat) :
    glyphBit m base (y * w + x) = pixRow m base ((w + 7) / 8) x y := by
  obtain ⟨q, rfl⟩ := Nat.dvd_of_mod_eq_zero hw
  have hrow : y * (8 * q) + x = 8 * (y * q) + x := by rw [Nat.mul_left_comm]
  have hwb : (8 * q + 7) / 8 = q := by omega
  rw [glyphBit, pixRow, hrow, hwb, Nat.mul_add_div (by decide), Nat.mul_add_mod]

/-- Settles O41: the rows that TRANSPOSE writes, read as streams. -/
theorem transposedRowsAreGlyphStreams : Obligations.TransposedRowsAreGlyphStreams := by
  intro s t bpp mode src dst w h hadmits hexec x hx y hy
  obtain ⟨hturn, -⟩ := transposeTurnsTheLayout.2 s bpp mode
  obtain ⟨m, hexec', hpix, -, -⟩ := hturn hadmits
  obtain rfl := Host.Outcome.next.inj (hexec.symm.trans hexec')
  have hrow : pixRow m dst ((w + 7) / 8) x y = pixColumn s.mem src ((h + 7) / 8) x y := hpix x hx y hy
  exact ⟨(glyphBit_row m dst _ x y).trans hrow, fun hw => (glyphBit_rows m dst hw x y).trans hrow⟩

end Sys2Proof.Machine
end

section
/-! SUPPORT. The window (45_window R321 to R329, R333): a write of its registers and a START case by case, the 11 units
of a START, and the sequencer and CW in turns, each pair of steps one unit on the bus; with them the statements
WindowRegistersStoreWhileIdle, WindowStartQueuesItsUnits, WindowStepPushesTheNextUnit and PendingWindowIsSentInOrder. -/

namespace Sys2Proof.Machine

open Sys2Proof.Laws

/-! ## The register writes (R323, R325, R327, R329) -/

theorem State.winBusy_iff (s : State) : s.winBusy = true ↔ s.win.pending ≠ [] := by simp [State.winBusy]

theorem State.windowWrite_of_pending {s : State} (h : s.win.pending ≠ []) (w : Win) :
    s.windowWrite w = s.raise .windowBusy := if_pos (s.winBusy_iff.2 h)

theorem State.windowWrite_of_idle {s : State} (h : s.win.pending = []) (w : Win) :
    s.windowWrite w = { s with win := w } := if_neg fun hbusy => s.winBusy_iff.1 hbusy h

/-- A WIN_CTRL row fixes bit 31 of DATA, which tells the START from the store (R112). -/
theorem encodes_winCtrl {m : AccessWord} (b : Bool) (hm : m &&& 0xFFFF00000000#48 = writeWord .winCtrl 0#32)
    (hb : bitAt (slice m 0 32) 31 = b) :
    Encodes m 0xFFFF80000000#48 fun d => if b then .wWinCtrlStart (bitAt d 0) else .wWinCtrlSet (bitAt d 0) := by
  refine encodes_of_register .winCtrl hm (by decide) fun d hd => ?_
  have hbit : bitAt d 31 = b := (bit_of_mask hd 31 (by decide)).trans hb
  rw [decodeWrite_winCtrl, hbit]

/-- Settles O43: each write's meaning is `windowWrite` of its register put together again from its fields. -/
theorem windowRegistersStoreWhileIdle : Obligations.WindowRegistersStoreWhileIdle := by
  refine ⟨?x, ?y, ?cmd, encodes_winCtrl false (by decide) (by decide), fun s d o hidle => ?idle,
    fun s a b c d e o hpending i hi => ?pending⟩
  case x => exact encodes_of_register .winX (by decide) (by decide) fun _ _ => rfl
  case y => exact encodes_of_register .winY (by decide) (by decide) fun _ _ => rfl
  case cmd => exact encodes_of_register .winCmd (by decide) (by decide) fun _ _ => rfl
  case idle =>
    have hstore : ∀ w, s.windowWrite w = { s with win := w } := State.windowWrite_of_idle hidle
    refine ⟨congrArg _ ((hstore _).trans ?_), congrArg _ ((hstore _).trans ?_), congrArg _ ((hstore _).trans ?_),
      congrArg _ (hstore _)⟩
    · rw [append_halves]
    · rw [append_halves]
    · rw [append_bytes3]
  case pending =>
    have hfault : ∀ w, s.windowWrite w = s.raise .windowBusy := State.windowWrite_of_pending hpending
    simp only [List.mem_cons, List.not_mem_nil, or_false] at hi
    rcases hi with rfl | rfl | rfl | rfl
    · exact congrArg _ (hfault _)
    · exact congrArg _ (hfault _)
    · exact congrArg _ (hfault _)
    · exact congrArg _ (hfault _)

/-! ## The units of a START (R321, R335) -/

/-- A command unit has bit 8 = 0. -/
theorem cmdUnit_eq (b : Byte) : cmdUnit b = b.zeroExtend 9 := by
  apply BitVec.eq_of_toNat_eq
  rw [cmdUnit, zero_append_toNat, BitVec.toNat_setWidth]
  omega

/-- A payload unit is the command unit of its byte with bit 8 set. -/
theorem dataUnit_eq (b : Byte) : dataUnit b = 0x100#9 ||| cmdUnit b := by
  apply BitVec.eq_of_toNat_eq
  rw [dataUnit, cmdUnit, append_toNat, BitVec.toNat_or, zero_append_toNat]
  exact Nat.two_pow_add_eq_or_of_lt b.isLt 1

/-! ## A START (R322) -/

section Start
variable {s : State} {o : Bool}

theorem windowInvalid_iff (w : Win) : windowInvalid w = true ↔ winX2 w < winX1 w ∨ winY2 w < winY1 w := by
  simp [windowInvalid]

theorem State.winStart_of_conflict (h : s.dma.busy = true ∧ s.dma.qsel = .tx .cw) :
    s.winStart = s.raise .queueConflict := if_pos h

theorem State.winStart_of_invalid (hfree : ¬(s.dma.busy = true ∧ s.dma.qsel = .tx .cw))
    (hinvalid : winX2 s.win < winX1 s.win ∨ winY2 s.win < winY1 s.win) : s.winStart = s.reportWin .invalidWindow :=
  (if_neg hfree).trans (if_pos ((windowInvalid_iff _).2 hinvalid))

theorem State.winStart_of_valid (hfree : ¬(s.dma.busy = true ∧ s.dma.qsel = .tx .cw))
    (hvalid : ¬(winX2 s.win < winX1 s.win ∨ winY2 s.win < winY1 s.win)) :
    s.winStart = ({ s with win.pending := winUnits s.win } : State).reportWin .ok :=
  (if_neg hfree).trans (if_neg fun h => hvalid ((windowInvalid_iff _).1 h))

theorem exec_winStart_of_pending (h : s.win.pending ≠ []) :
    exec (.wWinCtrlStart o) s = .next (s.raise .windowBusy) :=
  congrArg Host.Outcome.next (if_pos (s.winBusy_iff.2 h))

theorem exec_winStart_of_idle (h : s.win.pending = []) :
    exec (.wWinCtrlStart o) s = .next ({ s with win.orient := o } : State).winStart :=
  congrArg Host.Outcome.next (if_neg fun hbusy => s.winBusy_iff.1 hbusy h)

end Start

/-- Settles O44: the checks in their order on the state with ORIENT stored; a START that passes them leaves `winUnits`
pending. -/
theorem windowStartQueuesItsUnits : Obligations.WindowStartQueuesItsUnits := by
  refine ⟨encodes_winCtrl true (by decide) (by decide), fun s o => ⟨exec_winStart_of_pending, fun hidle => ?_⟩⟩
  rw [exec_winStart_of_idle hidle]
  refine ⟨fun hbusy hcw => ?conflict, fun hfree => ⟨fun hinvalid => ?invalid, fun hx hy => ?valid⟩⟩
  case conflict => exact congrArg _ (State.winStart_of_conflict ⟨hbusy, hcw⟩)
  case invalid => exact congrArg _ (State.winStart_of_invalid hfree hinvalid)
  case valid =>
    have hvalid : ¬(winX2 s.win < winX1 s.win ∨ winY2 s.win < winY1 s.win) :=
      not_or.2 ⟨BitVec.not_lt.2 hx, BitVec.not_lt.2 hy⟩
    refine congrArg _ ((State.winStart_of_valid (s := { s with win.orient := o }) hfree hvalid).trans ?_)
    simp only [← cmdUnit_eq, ← dataUnit_eq]
    cases o with
    | false => rfl
    | true => rfl

/-! ## The sequencer's step (R333) -/

/-- Settles O45: with a unit pending and room in TXQ[0] the sequencer's turn is the move of that unit. -/
theorem windowStepPushesTheNextUnit : Obligations.WindowStepPushesTheNextUnit := by
  intro s u rest hfaults hrefused hturn hpending hroom
  rw [step_eq hfaults hrefused, hturn]
  refine congrArg Host.Outcome.next ?_
  rcases s.tick.winStep_cases with ⟨hstuck, -⟩ | ⟨u', rest', hpending', -, hmove⟩
  · rcases hstuck with hnone | hfull
    · cases hpending.symm.trans hnone
    · exact absurd hroom (Nat.not_lt.2 hfull)
  · cases hpending.symm.trans hpending'
    exact hmove

/-! ## The sequencer and CW in turns (R192, R331, R333) -/

/-- CW's turn puts the queued word on the bus (R192). -/
theorem step_cw {s : State} {w : Word} (hfaults : s.faults = []) (hrefused : s.refused = none)
    (henable : s.eng.enable = 1#4) (hturn : s.nextTurn = .engine .cw) (hqueue : s.eng.txqCw = [w]) :
    step s = .next
      { s.tick with
        eng.txqCw := []
        pins := { s.pins with d := slice w 0 8, dc := bitAt w 8, wr := true }
        trace := s.trace ++ [cwEvent w] } := by
  have hactive : s.active .cw = true := (State.active_of_enable_cw henable .cw).2 rfl
  obtain ⟨hcw, -⟩ := engineStepRunsItsUnit s hfaults hrefused
  obtain ⟨hunit, -⟩ := writeUnitsBecomeWriteCycles s.tick w []
  exact (hcw w [] hturn hactive hqueue).trans (hunit hactive hqueue _ _)

/-- A run that goes on, with CW active, its queue empty and the units `us` pending, and the next turns the sequencer's
and CW's, a pair for each unit. -/
structure WindowTurns (us : List (BitVec 9)) (s : State) : Prop where
  faults : s.faults = []
  refused : s.refused = none
  enable : s.eng.enable = 1#4
  room : 1 ≤ s.params.qDepth
  queue : s.eng.txqCw = []
  pending : s.win.pending = us
  sched : ∃ rest, s.world.sched = (List.replicate us.length [Turn.window, Turn.engine .cw]).flatten ++ rest

/-- A pair of turns sends the first unit. -/
theorem WindowTurns.step_pair {u : BitVec 9} {us : List (BitVec 9)} {s : State} (h : WindowTurns (u :: us) s) :
    ∃ v t, step s = .next v ∧ step v = .next t ∧ WindowTurns us t ∧ t.trace = s.trace ++ [unitEvent u] := by
  obtain ⟨rest, hsched⟩ := h.sched
  have hturns : s.world.sched =
      .window :: .engine .cw :: ((List.replicate us.length [Turn.window, Turn.engine .cw]).flatten ++ rest) := by
    simp [hsched, List.replicate_succ]
  have hroom : s.eng.txqCw.length < s.params.qDepth := by
    rw [h.queue]
    exact h.room
  have hmove := windowStepPushesTheNextUnit s u us h.faults h.refused (by simp [State.nextTurn, hturns]) h.pending hroom
  rw [h.queue, List.nil_append] at hmove
  refine ⟨_, _, hmove, step_cw h.faults h.refused h.enable (by simp [State.nextTurn, hturns]) rfl, ?turns, ?trace⟩
  case turns =>
    exact
      { faults := h.faults, refused := h.refused, enable := h.enable, room := h.room, queue := rfl, pending := rfl
        sched := ⟨rest, by simp [hturns]⟩ }
  case trace => exact congrArg (fun e => s.trace ++ [e]) (cwEvent_zeroExtend u)

/-- The whole window, unit by unit. -/
theorem WindowTurns.run {us : List (BitVec 9)} {s : State} (h : WindowTurns us s) :
    ∃ t, runSteps (2 * us.length) s = .next t ∧ WindowTurns [] t ∧ t.trace = s.trace ++ us.map unitEvent := by
  induction us generalizing s with
  | nil => exact ⟨s, rfl, h, by simp⟩
  | cons u us ih =>
    obtain ⟨v, w, hstepV, hstepW, hturns, htrace⟩ := h.step_pair
    obtain ⟨t, hrun, hend, htraceT⟩ := ih hturns
    refine ⟨t, ?_, hend, ?_⟩
    · rw [List.length_cons, Nat.mul_succ, runSteps_succ hstepV, runSteps_succ hstepW, hrun]
    · rw [htraceT, htrace, List.map_cons, List.append_assoc, List.singleton_append]

/-- Settles O47: with no unit left nothing is pending and the queue is empty. -/
theorem pendingWindowIsSentInOrder : Obligations.PendingWindowIsSentInOrder := by
  intro s us rest hfaults hrefused henable hroom hqueue hpending hsched
  have hturns : WindowTurns us s := ⟨hfaults, hrefused, henable, hroom, hqueue, hpending, rest, hsched⟩
  obtain ⟨t, hrun, hend, htrace⟩ := hturns.run
  exact ⟨t, hrun, htrace, hend.pending, hend.queue⟩

end Sys2Proof.Machine
end

section
/-! SUPPORT. The error fields and the limits (60_exceptions R402, 41_config R153, R165, R166): which report each operation
can make, and that only INIT sets the limits; with them the statements StoppedRunsStayStopped and
ErrorFieldsHoldTheirUnitsCodes. -/

namespace Sys2Proof.Machine

/-! ## Stopped runs (R405, R406) -/

theorem step_of_faults {s : State} {f : Fault} {fs : List Fault} (h : s.faults = f :: fs) : step s = .fault f := by
  unfold step stepState
  rw [h]

theorem step_of_refused {s : State} {r : Refusal} (hfaults : s.faults = []) (hrefused : s.refused = some r) :
    step s = .refused r := by
  unfold step stepState
  rw [hfaults, hrefused]

/-- Settles O8: the step looks at `F` first, then at the refusal, and takes a turn where there is neither. -/
theorem stoppedRunsStayStopped : Obligations.StoppedRunsStayStopped :=
  ⟨fun _ _ _ hfaults => step_of_faults hfaults, fun _ _ hfaults hrefused => step_of_refused hfaults hrefused⟩

/-! ## The limits of INIT (R155) -/

theorem one_le_saturateLimit (q : Nat) : 1 ≤ (saturateLimit q).toNat := by
  rw [saturateLimit_toNat]
  omega

/-! ## What leaves the error fields and the limits alone -/

/-- What leaves the configuration and the other three error fields alone. -/
theorem StatusInv.of_frame {s t : State} (h : StatusInv s) (hcfg : t.cfg = s.cfg := by simp)
    (hdma : t.dma.err = s.dma.err := by simp) (henc : t.enc.err = s.enc.err := by simp)
    (hwin : t.win.err = s.win.err := by simp) : StatusInv t where
  cfg := hcfg ▸ h.cfg
  dma := hdma ▸ h.dma
  enc := henc ▸ h.enc
  win := hwin ▸ h.win
  limitsBefore := hcfg ▸ h.limitsBefore
  limitsAfter := hcfg ▸ h.limitsAfter

theorem statusInv_resetWith (p : Params) : StatusInv (State.resetWith p) where
  cfg := .inl rfl
  dma := .inl rfl
  enc := .inl rfl
  win := .inl rfl
  limitsBefore _ := ⟨rfl, rfl⟩
  limitsAfter := nofun

/-! ## The reports of each unit (R402) -/

theorem StatusInv.reportCfg {s : State} {c : ErrCode} (h : StatusInv s) (hc : c = .ok ∨ c = .pinConflict) :
    StatusInv (s.reportCfg c) := { h with cfg := hc }

theorem StatusInv.reportDma {s : State} {c : ErrCode} (h : StatusInv s) (hc : c = .ok ∨ c = .addressError) :
    StatusInv (s.reportDma c) := { h with dma := hc }

theorem StatusInv.reportEnc {s : State} {c : ErrCode} (h : StatusInv s)
    (hc : c = .ok ∨ c = .unsupportedPixelFormat ∨ c = .addressError ∨ c = .paletteRange) :
    StatusInv (s.reportEnc c) := { h with enc := hc }

theorem StatusInv.reportWin {s : State} {c : ErrCode} (h : StatusInv s) (hc : c = .ok ∨ c = .invalidWindow) :
    StatusInv (s.reportWin c) := { h with win := hc }

/-! ## Configuration (R151, R153) -/

/-- The configuration registers are none of the fields the invariant speaks of. -/
theorem StatusInv.configWrite {s : State} {c : Cfg} (h : StatusInv s)
    (hc : c = { s.cfg with pins := c.pins, pins2 := c.pins2, wclk := c.wclk, rclk := c.rclk }) :
    StatusInv (s.configWrite c) := by
  rcases s.configWrite_cases c with ⟨-, hraise⟩ | ⟨-, hwrite⟩
  · rw [hraise]; exact h.of_frame
  · rw [hwrite, hc]
    exact { h with }

/-- INIT sets CONFIGURED and, in the same step, both limits to at least 1. -/
theorem StatusInv.initialised {s : State} (h : StatusInv s) : StatusInv s.initialised where
  cfg := .inl rfl
  dma := h.dma
  enc := h.enc
  win := h.win
  limitsBefore := nofun
  limitsAfter _ := ⟨one_le_saturateLimit _, one_le_saturateLimit _⟩

/-! ## The DMA (R231, R233, R236) -/

theorem StatusInv.descriptorWrite {s : State} {d : Dma} (h : StatusInv s)
    (hd : d = { s.dma with addr := d.addr, count := d.count }) : StatusInv (s.descriptorWrite d) := by
  rcases s.descriptorWrite_cases d with ⟨-, hraise⟩ | ⟨-, hwrite⟩
  · rw [hraise]; exact h.of_frame
  · rw [hwrite, hd]; exact h.of_frame

theorem StatusInv.dmaStart {s : State} (h : StatusInv s) : StatusInv s.dmaStart := by
  rcases s.dmaStart_cases with ⟨-, hempty⟩ | ⟨-, -, herror⟩ | ⟨-, -, -, hstart⟩
  · rw [hempty]; exact h.reportDma (.inl rfl)
  · rw [herror]; exact h.reportDma (.inr rfl)
  · rw [hstart]; exact { h with dma := .inl rfl }

theorem StatusInv.dmaUnit {s : State} (h : StatusInv s) : StatusInv s.dmaUnit := by
  rcases s.dmaUnit_cases with ⟨-, hsame⟩ | ⟨-, hunit⟩
  · rw [hsame]; exact h
  · have hcount : StatusInv s.dmaMove.dmaCountDown :=
      (h.of_frame (t := s.dmaMove)).of_frame (hdma := rfl)
    rw [hunit]
    split
    · exact hcount.of_frame (hdma := rfl)
    · exact hcount

theorem StatusInv.dmaAck {s : State} (h : StatusInv s) : StatusInv s.dmaAck := by
  unfold State.dmaAck
  split
  · exact h.of_frame (hdma := rfl)
  · exact h

/-! ## The encoder (R271) -/

theorem StatusInv.startEncoder {s : State} (h : StatusInv s) (job : EncJob) : StatusInv (s.startEncoder job) := by
  rcases s.startEncoder_cases job with ⟨-, hformat⟩ | ⟨-, -, hrange⟩ | ⟨-, -, -, hrace⟩ | ⟨-, -, -, -, hpalette⟩ |
    ⟨-, -, -, -, hok⟩
  · rw [hformat]; exact h.reportEnc (.inr (.inl rfl))
  · rw [hrange]; exact h.reportEnc (.inr (.inr (.inl rfl)))
  · rw [hrace]; exact h.of_frame
  · rw [hpalette]; exact h.reportEnc (.inr (.inr (.inr rfl)))
  · rw [hok]; exact { h with enc := .inl rfl }

/-! ## The window (R322, R323, R333) -/

theorem StatusInv.windowWrite {s : State} {w : Win} (h : StatusInv s) (herr : w.err = s.win.err) :
    StatusInv (s.windowWrite w) := by
  rcases s.windowWrite_cases w with ⟨-, hraise⟩ | ⟨-, hwrite⟩
  · rw [hraise]; exact h.of_frame
  · rw [hwrite]; exact h.of_frame (hwin := herr)

theorem StatusInv.winStart {s : State} (h : StatusInv s) : StatusInv s.winStart := by
  rcases s.winStart_cases with ⟨-, hraise⟩ | ⟨-, -, hinvalid⟩ | ⟨-, -, hstart⟩
  · rw [hraise]; exact h.of_frame
  · rw [hinvalid]; exact h.reportWin (.inr rfl)
  · rw [hstart]; exact { h with win := .inl rfl }

theorem StatusInv.winStep {s : State} (h : StatusInv s) : StatusInv s.winStep := by
  rcases s.winStep_cases with ⟨-, hsame⟩ | ⟨u, rest, -, -, hmove⟩
  · rw [hsame]; exact h
  · rw [hmove]; exact h.of_frame

/-! ## Every meaning, and every step -/

theorem StatusInv.effect {s t : State} (h : StatusInv s) (he : Effect s t) : StatusInv t := by
  cases he with
  | same => exact h
  | raise | refuse | hold | hostReturn | pinctl | setEnable | terminate | hostPush | hostPop | transferFields | abort
  | memWrite | delay | writeUnit | tripleUnit | countUnit | commandUnit => exact h.of_frame
  | configWrite c hc => exact h.configWrite hc
  | pinConflict => exact h.reportCfg (.inr rfl)
  | initialised => exact h.initialised
  | clear sel => rw [s.clear_eq sel]; exact h.of_frame
  | descriptorWrite d hd => exact h.descriptorWrite hd
  | submit sz incr q =>
    exact (h.of_frame (t := { s with dma.size := sz, dma.incr := incr, dma.qsel := q })).dmaStart
  | encOperands e he => exact h.of_frame (henc := he)
  | encStart op bpp mode tdir job => exact (h.of_frame (t := s.encStore op bpp mode tdir) (henc := rfl)).startEncoder job
  | windowWrite w hpending herr => exact h.windowWrite herr
  | winStart orient => exact (h.of_frame (t := { s with win.orient := orient })).winStart
  | readStrobe k first => cases first <;> exact h.of_frame

/-- Settles O55: each unit reports its own codes only, and INIT alone sets the limits, with CONFIGURED. -/
theorem errorFieldsHoldTheirUnitsCodes : Obligations.ErrorFieldsHoldTheirUnitsCodes := by
  refine ⟨statusInv_resetWith, fun s t hs hstep => ?_⟩
  exact step_keeps StatusInv
    (tick := fun _ h => h.of_frame)
    (unhold := fun _ h => h.of_frame)
    (advance := fun _ h => h.of_frame)
    (refuse := fun _ _ h => h.of_frame)
    (drawn := fun _ h => h.of_frame)
    (meaning := fun _ _ _ hexec h => h.effect (exec_effect hexec))
    (restore := fun _ _ h => h.of_frame)
    (unit := fun _ h => h.dmaUnit)
    (ack := fun _ h => h.dmaAck)
    (window := fun _ h => h.winStep)
    hstep hs

end Sys2Proof.Machine
end

section
/-! SUPPORT. The state right after reset (70_reset_and_hazards R441, R442): the invariants there, field by field, and what
a register read returns in any state as one function; with them the statements InvariantsHoldAtReset and
ResetValuesAreTheTable. -/

namespace Sys2Proof.Machine

/-! ## The invariants right after reset (R441) -/

theorem memoryInv_resetWith (p : Params) : MemoryInv (State.resetWith p) := Memory.wf_nil

/-- No engine is active and the pins are not driven yet; the lane and the strobes stand at their idle levels (R64). -/
theorem busInv_resetWith (p : Params) : BusInv (State.resetWith p) where
  oneActive := .inl rfl
  configuredFirst hactive := absurd rfl hactive
  cdrActive hphase := absurd rfl hphase
  lane := ⟨nofun, nofun⟩
  strobes := ⟨rfl, rfl⟩
  driven := rfl
  rstLine := nofun
  blLine := nofun
  trace := rfl

theorem queueInv_resetWith (p : Params) : QueueInv (State.resetWith p) where
  cw := Nat.zero_le _
  dwb := Nat.zero_le _
  dwt := Nat.zero_le _
  cdr := Nat.zero_le _
  rx := Nat.zero_le _
  pending := Nat.zero_le _

/-- The channel is idle, and its QSEL is TXQ[0]. -/
theorem dmaInv_resetWith (p : Params) : DmaInv (State.resetWith p) := .of_idle rfl ⟨rfl, rfl⟩ nofun

/-- Settles O57: each invariant by its own lemma, and `State.reset` is one of these states by its definition. -/
theorem invariantsHoldAtReset : Obligations.InvariantsHoldAtReset :=
  ⟨fun p => ⟨memoryInv_resetWith p, busInv_resetWith p, queueInv_resetWith p, dmaInv_resetWith p⟩, rfl⟩

/-! ## What a register read returns (R70, R71) -/

/-- The word that the read of a register returns; a read of RXQ pops it and is not one of these (R189). -/
def State.registerRead (s : State) : Instr → Option Word
  | .rCfgPins => some s.cfg.pins
  | .rCfgPins2 => some s.cfgPins2Word
  | .rCfgWclk => some s.cfg.wclk
  | .rCfgRclk => some s.cfg.rclk
  | .rCfgStatus => some s.cfgStatusWord
  | .rTxLimit => some s.cfg.txLimit
  | .rRxLimit => some s.cfg.rxLimit
  | .rPinctl => some s.pinctlWord
  | .rEngEnable => some s.engEnableWord
  | .rEngIdle => some s.engIdleWord
  | .rTxLevel => some s.txLevelWord
  | .rRxLevel => some s.rxLevelWord
  | .rDmaAddr => some s.dma.addr
  | .rDmaCount => some s.dma.count
  | .rDmaCtrl => some s.dmaCtrlWord
  | .rDmaAbort => some s.dmaAbortWord
  | .rEncSrc => some s.enc.src
  | .rEncDst => some s.enc.dst
  | .rEncCount => some s.enc.count
  | .rEncPal => some s.enc.pal
  | .rEncPalLen => some s.encPalLenWord
  | .rEncFg => some s.encFgWord
  | .rEncBg => some s.encBgWord
  | .rEncDim => some s.enc.dim
  | .rEncCtrl => some s.encCtrlWord
  | .rEncStatus => some s.encStatusWord
  | .rWinX => some s.win.x
  | .rWinY => some s.win.y
  | .rWinCtrl => some s.winCtrlWord
  | .rWinCmd => some s.winCmdWord
  | .rWinStatus => some s.winStatusWord
  | _ => none

/-- A register's read returns its word to the host and does nothing else. -/
theorem exec_of_registerRead {s : State} {i : Instr} {v : Word} (h : s.registerRead i = some v) :
    exec i s = .next (s.hostReturn v) := by
  cases i with
  | rCfgPins | rCfgPins2 | rCfgWclk | rCfgRclk | rCfgStatus | rTxLimit | rRxLimit | rPinctl | rEngEnable | rEngIdle
  | rTxLevel | rRxLevel | rDmaAddr | rDmaCount | rDmaCtrl | rDmaAbort | rEncSrc | rEncDst | rEncCount | rEncPal
  | rEncPalLen | rEncFg | rEncBg | rEncDim | rEncCtrl | rEncStatus | rWinX | rWinY | rWinCtrl | rWinCmd | rWinStatus =>
    cases h; rfl
  | _ => cases h

/-! ## The reset table (R441, R442) -/

/-- No register's reset value depends on a parameter (R441). -/
theorem registerRead_resetWith (p : Params) (i : Instr) :
    (State.resetWith p).registerRead i = State.reset.registerRead i := by cases i <;> rfl

/-- Nothing has been read before, so the value returned stands alone. -/
theorem hostReturn_resetWith (p : Params) (v : Word) :
    (State.resetWith p).hostReturn v = { State.resetWith p with host.reads := [v] } := rfl

theorem txq_resetWith (p : Params) (e : Engine) : (State.resetWith p).txq e = [] := by cases e <;> rfl

/-- Settles O58: no reset value depends on the parameters, so the table is evaluated on `State.reset`, and each read
returns the value found there; the hidden state is that of R442. -/
theorem resetValuesAreTheTable : Obligations.ResetValuesAreTheTable := by
  intro p s
  refine ⟨fun r hr => ?registers, txq_resetWith p, rfl, rfl, rfl, rfl, rfl, rfl, rfl, rfl, rfl, rfl⟩
  case registers =>
    have hvalue : State.reset.registerRead r.1 = some r.2 := by revert r; decide
    have hread : s.registerRead r.1 = some r.2 := (registerRead_resetWith p r.1).trans hvalue
    exact (exec_of_registerRead hread).trans (congrArg _ (hostReturn_resetWith p r.2))

end Sys2Proof.Machine
end
